-- ==== Sys2Proof/Word.lean ====
section
/-! DEFINITION. Word.lean: the plain value types of the model (a byte, a string of bytes, a digest). -/

namespace Sys2Proof

/-- One byte of a frame, a record, a manifest or a buffer. -/
abbrev Byte := BitVec 8

/-- A run of bytes in storage or transmission order (R202). -/
abbrev Bytes := List Byte

/-- A digest: the 32 bytes of a SHA-256 value in storage order (00_scope.md, Conventions; R202). -/
abbrev Digest := Bytes

end Sys2Proof
end

