-- ==== Sys2Proof/Syntax.lean ====
section
/-! DEFINITION. Syntax.lean: the commands of the block, one constructor per row of spec/opcode_table.json.
A command is an operation of a bus, a pin event, a timer expiry or a completion; what the outside world supplies
with it (levels, bytes, results) is its operands (DESIGN CHOICE, log entry 19); times are not (log entry 20). -/

namespace Sys2Proof

/-- The two master ports (07_master_ports.md). -/
inductive Port where
  | a | b
  deriving DecidableEq, Repr

/-- The two events that pass through a period counter (R196). -/
inductive PeriodEvent where
  | imageComplete | rescanPass
  deriving DecidableEq, Repr

/-- The engine whose known-answer job completes in the self-check (R19). -/
inductive Engine where
  | digest | signature
  deriving DecidableEq, Repr

/-- The commands. Each docstring names its operands. -/
inductive Instr where
  /-- POWER_ON: the supplies become good; `straps` are the levels of SADR1 and SADR0. -/
  | powerOn (straps : BitVec 2)
  /-- POWER_LOSS: the supplies fail. -/
  | powerLoss
  /-- RESET_N_ASSERT: RESET_N goes low. -/
  | resetNAssert
  /-- RESET_N_RELEASE: RESET_N goes high; `straps` are the levels of SADR1 and SADR0. -/
  | resetNRelease (straps : BitVec 2)
  /-- FLASH_READY_POLL_DONE: a status poll of the flash-ready wait returns `status`. -/
  | flashReadyPollDone (status : Byte)
  /-- FLASH_READY_LIMIT_EXPIRY: the 2,000 ms limit of the flash-ready wait expires. -/
  | flashReadyLimitExpiry
  /-- FLASH_RESET_SETTLE_EXPIRY: the 1 ms settle time of the flash reset sequence expires. -/
  | flashResetSettleExpiry
  /-- FUSE_LOAD_DONE: the fuse load completes. -/
  | fuseLoadDone
  /-- SELF_CHECK_JOB_DONE: a known-answer job of `engine` completes; `good`: with the result it must have. -/
  | selfCheckJobDone (engine : Engine) (good : Bool)
  /-- HEADER_READ_DONE: the header read of a bank returns the 256 bytes `data`. -/
  | headerReadDone (data : Bytes)
  /-- MANIFEST_READ_DONE: a walk read of part of a manifest returns `data`. -/
  | manifestReadDone (data : Bytes)
  /-- SIGNATURE_DONE: the signature engine completes its job for a manifest; `pass` is the verdict, which its inputs decide. -/
  | signatureDone (pass : Bool)
  /-- FLASH_GRANT: a selection of the fetch arbiter. -/
  | flashGrant
  /-- FLASH_READ_DONE: a unit read returns the 4,096 bytes `data`. -/
  | flashReadDone (data : Bytes)
  /-- STATUS_READ_DONE: a status read during a program or erase returns `status`. -/
  | statusReadDone (status : Byte)
  /-- PROGRAM_LIMIT_EXPIRY: the 10 ms program limit expires. -/
  | programLimitExpiry
  /-- ERASE_LIMIT_EXPIRY: the 2,000 ms erase limit expires. -/
  | eraseLimitExpiry
  /-- DIGEST_BLOCK_HASH_DONE: the digest engine completes a digest block unit. -/
  | digestBlockHashDone
  /-- SEGMENT_HASH_DONE: the digest engine completes a segment unit. -/
  | segmentHashDone
  /-- SWITCHING_TEARDOWN: the teardown of SWITCHING. -/
  | switchingTeardown
  /-- RESCAN_HASH_DONE: the digest engine completes the rescan buffer's unit. -/
  | rescanHashDone
  /-- RESCAN_TIMER_EXPIRY: the rescan interval expires. -/
  | rescanTimerExpiry
  /-- OPTION_SAMPLE: the 1 ms sample; bit k of `levels` is the level of OPTk. -/
  | optionSample (levels : Byte)
  /-- HOLD_TIMER_EXPIRY: the 10 ms reset hold of `port` expires. -/
  | holdTimerExpiry (port : Port)
  /-- RISE_DELAY_EXPIRY: the rise delay of the pending permit line expires. -/
  | riseDelayExpiry
  /-- FALL_DELAY_EXPIRY: the fall delay of the pending permit line expires. -/
  | fallDelayExpiry
  /-- READ: the end of a READ frame; bit 0 of `flags` is the STREAM mark. -/
  | read (port : Port) (tag : Byte) (address : BitVec 32) (length : BitVec 16) (flags : Byte)
  /-- TRANSLATE: the end of a TRANSLATE frame. -/
  | translate (port : Port) (tag : Byte) (address : BitVec 32)
  /-- WRITE: the end of a WRITE frame. -/
  | write (port : Port) (tag : Byte) (address : BitVec 32) (data : Bytes)
  /-- ERASE: the end of an ERASE frame. -/
  | erase (port : Port) (tag : Byte) (address : BitVec 32)
  /-- COLLECT: the end of a COLLECT frame in which the master clocked `clocked` bytes in all. -/
  | collect (port : Port) (clocked : Nat)
  /-- STATUS: the end of a STATUS frame. -/
  | status (port : Port)
  /-- REBOOT: the end of a REBOOT frame. -/
  | reboot (port : Port)
  /-- PERMIT_ON: the end of a PERMIT_ON frame. -/
  | permitOn (port : Port)
  /-- PERMIT_OFF: the end of a PERMIT_OFF frame. -/
  | permitOff (port : Port)
  /-- MALFORMED_FRAME: the end of a frame whose bits `received`, in the order they were clocked, make no complete command and
  header. -/
  | malformedFrame (port : Port) (received : List Bool)
  /-- COLLECT_WINDOW_EXPIRY: the 100 ms collect window of `port` expires. -/
  | collectWindowExpiry (port : Port)
  /-- SET_POINTER: a write transaction to the 7-bit `address` begins with the pointer byte in `byte`; with none, it ends with no
  byte after the address. -/
  | setPointer (address : BitVec 7) (byte : Option Byte)
  /-- READ_TRANSACTION: with a 7-bit address in `start`, a read transaction to it begins and the master clocks `count` bytes;
  with none, the read transaction that runs goes on for `count` bytes more (log entry 17). -/
  | readTransaction (start : Option (BitVec 7)) (count : Nat)
  /-- IMAGE_SELECT_WRITE: the data byte `byte` written with the pointer at 0x30. -/
  | imageSelectWrite (byte : Byte)
  /-- CLEAR_WRITE: the data byte `byte` written with the pointer at 0x11. -/
  | clearWrite (byte : Byte)
  /-- EVENT_MASK_WRITE: the data byte `byte` written with the pointer at 0x12. -/
  | eventMaskWrite (byte : Byte)
  /-- PERIOD_WRITE: the data byte `byte` written with the pointer at the period of `event`, 0x13 or 0x14. -/
  | periodWrite (event : PeriodEvent) (byte : Byte)
  /-- REGISTER_WRITE: the data byte `byte` written with the pointer at any other address, or to a restart candidate. -/
  | registerWrite (byte : Byte)
  /-- FLOOR_ADVANCE: the code 0xA1 written with the pointer at 0x19. -/
  | floorAdvance
  /-- REVOKE_SLOT: the code 0xA2 written with the pointer at 0x19; the slot number is the argument field. -/
  | revokeSlot
  /-- BAD_COMMAND: any other code written with the pointer at 0x19. -/
  | badCommand (code : Byte)
  /-- FUSE_BURN_COMPLETION: a burn completes; `readBack`: the fuse reads back burned. -/
  | fuseBurnCompletion (readBack : Bool)
  /-- RESTART_SEQUENCE: the STOP after the acknowledged bytes of the restart sequence. -/
  | restartSequence
  /-- SERVICE_RESTART: a pending restart takes effect. -/
  | serviceRestart
  /-- CS_N_FALL: CS_N of `port` falls. -/
  | csNFall (port : Port)
  deriving DecidableEq, Repr

end Sys2Proof
end

