-- ==== Sys2Proof/Decode.lean ====
section
/-! DEFINITION. Decode.lean: the command that a word spells by the bits of spec/opcode_table.json. -/

namespace Sys2Proof

/-- No row of spec/opcode_table.json gives bits, so no word spells a command (DEDUCED, log entry 30). (The bytes of a port frame spell a command by
`Machine.frameCommand`, and a data byte of the service port by `Machine.dataByteCommand`.) -/
def decodeTableWord (_nbits _w : Nat) : Option Instr := none

end Sys2Proof
end

