-- ==== Sys2Proof/Machine/Bits.lean ====
section
/-! DEFINITION. Machine/Bits.lean: byte-order and field helpers (R202). Flash structures are read least significant byte
first; port frames, responses and service records go most significant byte first. -/

namespace Sys2Proof.Machine

/-- The byte at offset `i`, as a number; 0 past the end (DESIGN CHOICE, log entry 28). -/
def byteAt (b : Bytes) (i : Nat) : Nat := (b.getD i 0).toNat

/-- Two bytes at offset `i`, least significant first (flash structures, R202). -/
def le16 (b : Bytes) (i : Nat) : Nat := byteAt b i + 256 * byteAt b (i + 1)

/-- Four bytes at offset `i`, least significant first (flash structures, R202). -/
def le32 (b : Bytes) (i : Nat) : Nat := le16 b i + 65536 * le16 b (i + 2)

/-- Two bytes at offset `i`, most significant first (frames and records, R202). -/
def be16At (b : Bytes) (i : Nat) : Nat := 256 * byteAt b i + byteAt b (i + 1)

/-- Four bytes at offset `i`, most significant first (frames and records, R202). -/
def be32At (b : Bytes) (i : Nat) : Nat := 65536 * be16At b i + be16At b (i + 2)

/-- The `n` bytes at offset `i`. -/
def slice (b : Bytes) (i n : Nat) : Bytes := (b.drop i).take n

/-- A two-byte number, most significant byte first (R202). -/
def be16 (n : Nat) : Bytes := [BitVec.ofNat 8 (n / 256), BitVec.ofNat 8 n]

/-- A four-byte number, most significant byte first (R202). -/
def be32 (n : Nat) : Bytes := be16 (n / 65536) ++ be16 n

/-- The smallest whole number at least `n / d`. -/
def ceilDiv (n d : Nat) : Nat := (n + d - 1) / d

/-- A flag as a number. -/
def bit (b : Bool) : Nat := if b then 1 else 0

/-- Zero bytes: the filler of a frame (R126), the bytes of an address that holds nothing (R191). -/
def zeros (n : Nat) : Bytes := List.replicate n 0

end Sys2Proof.Machine
end

