-- ==== Sys2Proof/Config.lean ====
section
/-! DEFINITION. Config.lean: the fixed sizes of the part and its free values. -/

namespace Sys2Proof.Config

/-- Bytes of a segment, a cache line, a digest block and a unit of the digest engine (00_scope.md, Conventions; R72). -/
def segmentBytes : Nat := 4096

/-- Segments covered by one digest block (R65). -/
def blockSegments : Nat := 128

/-- Bytes of a MiB (00_scope.md, Conventions). -/
def mib : Nat := 1048576

/-- The first read of a manifest, and its header (R20, R22). -/
def headerBytes : Nat := 256

/-- The port address space ends at 2^26 (R31, R138). -/
def portSpace : Nat := 2 ^ 26

/-- FREE VALUE (log entry 1): whether the `k`-th fuse left unsettled, by a burn cut short or by a
failed read-back, reads burned at every later load (R6). It has no body: nothing can be proved of its value. -/
opaque unsettledFuseReadsBurned : Nat → Bool

/-- FREE VALUE (log entry 34): how many whole bytes the part had driven in the `k`-th frame cut short because its port left
RELEASED while it ran (R150). It has no body: nothing can be proved of its value. -/
opaque bytesBeforeCut : Nat → Nat

end Sys2Proof.Config
end

