-- ==== Sys2Proof/Machine/Sha256.lean ====
section
/-! DEFINITION. Machine/Sha256.lean: the SHA-256 value of a run of bytes (00_scope.md: "A digest is the 32-byte SHA-256
value of the bytes concerned"). The spec names the function and does not write it out: the steps are the published
standard's (FIPS 180-4), PRESUMED, log entry 4. Words are numbers below 2^32. -/

namespace Sys2Proof.Machine

/-- The low 32 bits of a sum. -/
def word (n : Nat) : Nat := n % 4294967296

/-- A word turned right by `k` places. -/
def turn (k x : Nat) : Nat := x / 2 ^ k + x % 2 ^ k * 2 ^ (32 - k)

/-- The sum modulo 2 of a word turned by three distances. -/
def turns (i j k x : Nat) : Nat := turn i x ^^^ turn j x ^^^ turn k x

/-- The sum modulo 2 of a word turned by two distances and shifted by a third. -/
def turnsShift (i j k x : Nat) : Nat := turn i x ^^^ turn j x ^^^ x / 2 ^ k

/-- The four words of a 128-bit number, most significant first. -/
def quarters (n : Nat) : List Nat := [n / 2 ^ 96, word (n / 2 ^ 64), word (n / 2 ^ 32), word n]

/-- The round constants, four to a number. -/
def shaConstants : List Nat :=
  ([0x428a2f98_71374491_b5c0fbcf_e9b5dba5, 0x3956c25b_59f111f1_923f82a4_ab1c5ed5,
    0xd807aa98_12835b01_243185be_550c7dc3, 0x72be5d74_80deb1fe_9bdc06a7_c19bf174] ++
   [0xe49b69c1_efbe4786_0fc19dc6_240ca1cc, 0x2de92c6f_4a7484aa_5cb0a9dc_76f988da,
    0x983e5152_a831c66d_b00327c8_bf597fc7, 0xc6e00bf3_d5a79147_06ca6351_14292967] ++
   [0x27b70a85_2e1b2138_4d2c6dfc_53380d13, 0x650a7354_766a0abb_81c2c92e_92722c85,
    0xa2bfe8a1_a81a664b_c24b8b70_c76c51a3, 0xd192e819_d6990624_f40e3585_106aa070] ++
   [0x19a4c116_1e376c08_2748774c_34b0bcb5, 0x391c0cb3_4ed8aa4a_5b9cca4f_682e6ff3,
    0x748f82ee_78a5636f_84c87814_8cc70208, 0x90befffa_a4506ceb_bef9a3f7_c67178f2]).flatMap quarters

/-- The words of a computation: the last four of the first kind and the last four of the second kind, newest first. -/
abbrev ShaWords := List Nat × List Nat

/-- The words a computation begins with. -/
def shaStart : ShaWords :=
  (quarters 0x6a09e667_bb67ae85_3c6ef372_a54ff53a, quarters 0x510e527f_9b05688c_1f83d9ab_5be0cd19)

/-- One round: a new word of each kind, from the eight held, a constant and a schedule word. -/
def shaRound (constant schedule : Nat) : ShaWords → ShaWords
  | ([p, q, r, s], [t, u, v, w]) =>
    let inward := w + turns 6 11 25 t + ((t &&& u) ||| (t ^^^ 0xffffffff) &&& v) + constant + schedule
    let outward := turns 2 13 22 p + ((p &&& (q ||| r)) ||| q &&& r)
    ([word (inward + outward), p, q, r], [word (s + inward), t, u, v])
  | x => x

/-- The schedule word sixteen places after the first of `ws`. -/
def shaSchedule (ws : List Nat) : Nat :=
  word (turnsShift 17 19 10 (ws.getD 14 0) + ws.getD 9 0 + turnsShift 7 18 3 (ws.getD 1 0) + ws.getD 0 0)

/-- The rounds of one block, over the constants left, with the next sixteen schedule words. -/
def shaRounds : List Nat → List Nat → ShaWords → ShaWords
  | c :: cs, w :: ws, x => shaRounds cs (ws ++ [shaSchedule (w :: ws)]) (shaRound c w x)
  | _, _, x => x

/-- The words at the front of a run of bytes, each most significant byte first. -/
def wordsOf : Nat → Bytes → List Nat
  | 0, _ => []
  | n + 1, b => be32At b 0 :: wordsOf n (b.drop 4)

/-- The words after `n` more 64-byte blocks. -/
def shaBlocks : Nat → Bytes → ShaWords → ShaWords
  | 0, _, x => x
  | n + 1, b, x =>
    let y := shaRounds shaConstants (wordsOf 16 b) x
    shaBlocks n (b.drop 64) (x.1.zipWith (fun i j => word (i + j)) y.1, x.2.zipWith (fun i j => word (i + j)) y.2)

/-- The padded message: a 1 bit, zeros, and the length in bits in eight bytes. -/
def shaPad (b : Bytes) : Bytes :=
  b ++ 0x80 :: zeros ((119 - b.length % 64) % 64) ++ be32 (b.length * 8 / 4294967296) ++ be32 (b.length * 8)

/-- The SHA-256 value of `b`, 32 bytes in storage order. -/
def sha256 (b : Bytes) : Digest :=
  let x := shaBlocks ((shaPad b).length / 64) (shaPad b) shaStart
  (x.1 ++ x.2).flatMap be32

end Sys2Proof.Machine
end

