-- ==== Sys2Proof/Machine/Signature.lean ====
section
/-! DEFINITION. Machine/Signature.lean: the signature engine's verdict on a job (R26; 00_scope.md: "Signatures are ECDSA over
the P-256 curve; the signature engine's result is pass or fail"). The spec names the check and does not write it out: the curve,
the steps, SHA-256 as the digest that is signed, and the numbers' byte order, most significant byte first, are the published
standards' (FIPS 186, SEC 1), PRESUMED, log entry 31. -/

namespace Sys2Proof.Machine

/-- The prime of the curve's field. -/
def fieldPrime : Nat := 2 ^ 256 - 2 ^ 224 + 2 ^ 192 + 2 ^ 96 - 1

/-- The order of the curve's base point. -/
def groupOrder : Nat := 0xffffffff00000000ffffffffffffffffbce6faada7179e84f3b9cac2fc632551

/-- The constant term of the curve `y^2 = x^3 - 3 x + b`. -/
def curveB : Nat := 0x5ac635d8aa3a93e7b3ebbd55769886bc651d06b0cc53b0f63bce3c3e27d2604b

/-- A point in Jacobian coordinates: `(x / z^2, y / z^3)`, and the point at infinity at `z = 0`. -/
structure CurvePoint where
  x : Nat
  y : Nat
  z : Nat
  deriving DecidableEq, Repr

/-- The base point. -/
def basePoint : CurvePoint :=
  ⟨0x6b17d1f2e12c4247f8bce6e563a440f277037d812deb33a0f4a13945d898c296,
   0x4fe342e2fe1a7f9b8ee7eb4a7c0f9e162bce33576b315ececbb6406837bf51f5, 1⟩

/-- The point at infinity. -/
def infinity : CurvePoint := ⟨1, 1, 0⟩

/-- A product in the field. -/
def fieldMul (a b : Nat) : Nat := a * b % fieldPrime

/-- A difference in the field, of numbers below its prime. -/
def fieldSub (a b : Nat) : Nat := (a + fieldPrime - b) % fieldPrime

/-- A point added to itself. -/
def CurvePoint.double (p : CurvePoint) : CurvePoint :=
  let yy := fieldMul p.y p.y
  let zz := fieldMul p.z p.z
  let s := fieldMul (4 * p.x) yy
  let m := fieldMul (3 * fieldSub p.x zz) (p.x + zz)
  let x := fieldSub (fieldMul m m) (2 * s % fieldPrime)
  ⟨x, fieldSub (fieldMul m (fieldSub s x)) (fieldMul (8 * yy) yy), fieldMul (2 * p.y) p.z⟩

/-- The sum of two points. -/
def CurvePoint.add (p q : CurvePoint) : CurvePoint :=
  if p.z == 0 then q
  else if q.z == 0 then p
  else
    let pzz := fieldMul p.z p.z
    let qzz := fieldMul q.z q.z
    let u := fieldMul p.x qzz
    let s := fieldMul p.y (fieldMul q.z qzz)
    let h := fieldSub (fieldMul q.x pzz) u
    let r := fieldSub (fieldMul q.y (fieldMul p.z pzz)) s
    if h == 0 then if r == 0 then p.double else infinity
    else
      let hh := fieldMul h h
      let hhh := fieldMul h hh
      let v := fieldMul u hh
      let x := fieldSub (fieldMul r r) ((hhh + 2 * v) % fieldPrime)
      ⟨x, fieldSub (fieldMul r (fieldSub v x)) (fieldMul s hhh), fieldMul h (fieldMul p.z q.z)⟩

/-- `u` times the point `p` plus `v` times the point `q`, over the `n` low bits of both numbers; `pq` is the sum of the two. -/
def linearSum (p q pq : CurvePoint) (u v : Nat) : Nat → CurvePoint → CurvePoint
  | 0, acc => acc
  | n + 1, acc =>
    let twice := acc.double
    linearSum p q pq u v n
      (match u.testBit n, v.testBit n with
      | true, true => twice.add pq
      | true, false => twice.add p
      | false, true => twice.add q
      | false, false => twice)

/-- `a` to the power of the `n` low bits of `e`, modulo `m`. -/
def powerMod (m a e : Nat) : Nat → Nat → Nat
  | 0, acc => acc
  | n + 1, acc => powerMod m a e n (if e.testBit n then acc * acc % m * a % m else acc * acc % m)

/-- The number a run of bytes spells, most significant byte first. -/
def numberOf (b : Bytes) : Nat := b.foldl (fun n x => 256 * n + x.toNat) 0

/-- A job of the signature engine: the bytes signed, the public key and the signature (R26). -/
structure SignatureJob where
  message : Bytes
  publicKey : Bytes
  signature : Bytes
  deriving DecidableEq, Repr

/-- The public key as a point: its two coordinates in 32 bytes each. -/
def SignatureJob.keyPoint (j : SignatureJob) : CurvePoint :=
  ⟨numberOf (slice j.publicKey 0 32), numberOf (slice j.publicKey 32 32), 1⟩

/-- A point with both coordinates in the field and on the curve. -/
def CurvePoint.onCurve (q : CurvePoint) : Bool :=
  q.x < fieldPrime && q.y < fieldPrime &&
    fieldMul q.y q.y == (fieldMul (fieldMul q.x q.x) q.x + 3 * (fieldPrime - q.x) + curveB) % fieldPrime

/-- The first coordinate of a point, taken modulo the group's order, is `r`: compared without a division in the field. -/
def CurvePoint.firstIs (p : CurvePoint) (r : Nat) : Bool :=
  let zz := fieldMul p.z p.z
  p.z != 0 && (p.x == fieldMul r zz || (r + groupOrder < fieldPrime && p.x == fieldMul (r + groupOrder) zz))

/-- The job passes: the signature `(r, s)` is one of the message's digest under the key. -/
def SignatureJob.passes (j : SignatureJob) : Bool :=
  let q := j.keyPoint
  let r := numberOf (slice j.signature 0 32)
  let s := numberOf (slice j.signature 32 32)
  let w := powerMod groupOrder s (groupOrder - 2) 256 1
  let u := numberOf (sha256 j.message) * w % groupOrder
  let v := r * w % groupOrder
  q.onCurve && 1 ≤ r && r < groupOrder && 1 ≤ s && s < groupOrder &&
    (linearSum basePoint q (basePoint.add q) u v 256 infinity).firstIs r

end Sys2Proof.Machine
end

