-- ==== Sys2Proof/Machine/State.lean ====
section
/-! DEFINITION. Machine/State.lean: everything the spec gives the part to hold, as plain data, block by block in the
order of 00_scope.md's block overview, and the state after reset. Fields marked MODEL are the model's own. -/

namespace Sys2Proof.Machine

/-! ## Fuses (01_flash_regions_fuses_and_the_rollback_floor.md) -/

/-- The level at which a permit line is active (R4, R9). -/
inductive Level where
  | high | low
  deriving DecidableEq, Repr

/-- What a permit line does on a hard trip (R4, R9). -/
inductive TripAction where
  | inactive | float
  deriving DecidableEq, Repr

/-- The three permit lines (R160). -/
inductive PermitLine where
  | pl0 | pl1 | pl2
  deriving DecidableEq, Repr

/-- One value for each permit line. -/
structure PerLine (α : Type) where
  pl0 : α
  pl1 : α
  pl2 : α
  deriving DecidableEq, Repr

/-- A key slot: a 32-byte key digest and a programmed flag (R4). -/
structure KeySlot where
  programmed : Bool
  keyDigest : Digest
  deriving DecidableEq, Repr

/-- One fuse the part burns. `unsettled k`: its burn was cut short or its read-back failed; it reads at every later
load as the free value `Config.unsettledFuseReadsBurned k` (R6). -/
inductive FuseCell where
  | unburned
  | burned
  | unsettled (k : Nat)
  deriving DecidableEq, Repr

/-- The fuse array, the one-time memory (R4). -/
structure FuseArray where
  primary : Vector KeySlot 4
  recovery : KeySlot
  revoke : Vector FuseCell 4
  floor : Vector FuseCell 32
  /-- The two fuses of the flash size field. -/
  sizeFirst : Bool
  sizeSecond : Bool
  /-- The eight fuses of the recovery size field. -/
  recoverySize : Vector Bool 8
  autoRecovery : Bool
  lineLevel : PerLine Level
  tripAction : PerLine TripAction
  deriving DecidableEq, Repr

/-- The fuse image: the held copy of every field from which every block takes its values (R5). -/
structure FuseImage where
  primary : Vector KeySlot 4
  recovery : KeySlot
  revoked : Vector Bool 4
  floor : Vector Bool 32
  /-- The flash size F in MiB: 16, 32 or 64 (R1). -/
  flashMiB : Nat
  /-- The recovery size Rz in MiB: 0 to 8 (R1). -/
  recoveryMiB : Nat
  autoRecovery : Bool
  lineLevel : PerLine Level
  tripAction : PerLine TripAction
  deriving DecidableEq, Repr

/-- The fuse controller (R10): IDLE, or BURNING one named fuse for one command; the target level and the running
REVOKE_SLOT's slot are held only while BURNING (R16). -/
inductive FuseController where
  | idle
  | burningFloor (fuse : Fin 32) (target : Nat)
  | burningRevoke (slot : Fin 4)
  deriving DecidableEq, Repr

/-! ## The manifest unit (02_the_manifest_walk.md) -/

/-- The two banks (R1). -/
inductive Bank where
  | bank0 | bank1
  deriving DecidableEq, Repr

/-- A candidate, and the source in force (R3). -/
inductive Source where
  | bank (b : Bank)
  | recovery
  deriving DecidableEq, Repr

/-- The verifier state (02_the_manifest_walk.md, The verifier states). -/
inductive VerifierState where
  | starting | walking | serving | recoveryServing | switching | locked
  deriving DecidableEq, Repr

/-- The step of STARTING under way (R18 to R20). In `selfCheck` the digest job is done or not, and the signature
engine has completed 0, 1 or 2 of its two jobs. -/
inductive StartStep where
  | flashWait
  | fuseLoad
  | selfCheck (digestDone : Bool) (signaturesDone : Nat)
  | headers (bank : Bank)
  deriving DecidableEq, Repr

/-- The LOCKED cause (R38). -/
inductive LockedCause where
  | selftest | noManifest
  deriving DecidableEq, Repr

/-- The walk error codes (12_formats.md). -/
inductive WalkError where
  | none | noMarker | badKind | badLength | keyMismatch | keyRevoked | badSignature | belowFloor | tooDeep | tableFull
  | digestStoreFull | badWindow | windowOverlap | outOfRegion | badEntry | notTried
  deriving DecidableEq, Repr

/-- The kind of a manifest (R23). -/
inductive ManifestKind where
  | root | recovery | child
  deriving DecidableEq, Repr

/-- The sense of a condition (R46). -/
inductive Sense where
  | set | clear
  deriving DecidableEq, Repr

/-- A condition: one bit of the option word and a sense (R46). -/
structure Condition where
  bit : Fin 8
  sense : Sense
  deriving DecidableEq, Repr

/-- A frame of the walk stack (02_the_manifest_walk.md, Entries and the walk stack). -/
structure Frame where
  /-- The bytes of the manifest buffer read so far. -/
  buffer : Bytes
  /-- The manifest's region-absolute flash location. -/
  location : Nat
  kind : ManifestKind
  /-- The index of the next entry to process. -/
  next : Nat
  /-- The condition imposed on everything under the manifest. -/
  condition : Option Condition
  /-- The allowed key slot mask of the CHILD entry that led here (R35). -/
  keyMask : Byte
  deriving DecidableEq, Repr

/-- A read of the manifest unit: flash address and length (R104). -/
structure WalkRead where
  address : Nat
  length : Nat
  deriving DecidableEq, Repr

/-- For a bank in force, the root's verified rollback level and key slot (walk summary). -/
structure RootInfo where
  level : Nat
  keySlot : Nat
  deriving DecidableEq, Repr

/-- The walk summary: the source in force and, for a bank, the root's level and key slot (R37). -/
structure Summary where
  source : Source
  root : Option RootInfo
  deriving DecidableEq, Repr

/-- The manifest unit. -/
structure ManifestUnit where
  state : VerifierState
  /-- The step under way in STARTING; none elsewhere and while RESET_N or the supplies hold the part. -/
  startStep : Option StartStep
  lockedCause : Option LockedCause
  errorBank0 : WalkError
  errorBank1 : WalkError
  errorRecovery : WalkError
  /-- The header level of each bank that is a candidate (R20). -/
  levelBank0 : Option Nat
  levelBank1 : Option Nat
  /-- The listed banks not yet walked, in the order they are to be tried (R21). -/
  candidates : List Bank
  /-- The candidate being walked. -/
  current : Option Source
  /-- The walk stack, top frame first, frame 0 last (R28). -/
  stack : List Frame
  /-- The walk read outstanding, from its forming to its completion (R115). -/
  walkRead : Option WalkRead
  /-- The job that the signature engine makes for a manifest (R26). -/
  signatureJob : Option SignatureJob
  summary : Option Summary
  deriving DecidableEq, Repr

/-! ## Images, segment map, block digest store (03, 04) -/

/-- An image's owner (00_scope.md, Ports and owners). -/
inductive Owner where
  | a | b | both
  deriving DecidableEq, Repr

/-- Window modes (R31). -/
inductive WindowMode where
  | linear | mirror
  deriving DecidableEq, Repr

/-- Release modes (R149). -/
inductive ReleaseMode where
  | eager | lazy
  deriving DecidableEq, Repr

/-- An image's verification state (R45). -/
inductive ImageState where
  | pending | complete | failed
  deriving DecidableEq, Repr

/-- The failure record: the first failed segment or the failed block index (R45). -/
inductive FailureRecord where
  | segment (index : Nat)
  | block (index : Nat)
  deriving DecidableEq, Repr

/-- An image record (R34, R44). -/
structure Image where
  index : Nat
  name : Bytes
  owner : Owner
  /-- The segment count N. -/
  segments : Nat
  windowBase : Nat
  windowMode : WindowMode
  windowSpan : Nat
  releaseMode : ReleaseMode
  readAhead : Nat
  flashBase : Nat
  digestBase : Nat
  conditions : List Condition
  firstStore : Nat
  blockCount : Nat
  included : Bool
  state : ImageState
  verified : Nat
  failure : Option FailureRecord
  deriving DecidableEq, Repr

/-- A segment's state (R60). -/
inductive SegState where
  | unverified | verified | failed
  deriving DecidableEq, Repr

/-- A block's state (R63). -/
inductive BlockState where
  | good | failed
  deriving DecidableEq, Repr

/-- An entry of the block digest store (R34, R63). -/
structure StoreEntry where
  image : Nat
  block : Nat
  digest : Digest
  state : BlockState
  deriving DecidableEq, Repr

/-- A digest block of an image. -/
structure BlockTag where
  image : Nat
  block : Nat
  deriving DecidableEq, Repr

/-- A segment of an image. -/
structure SegTag where
  image : Nat
  segment : Nat
  deriving DecidableEq, Repr

/-- Digest slot states (R64). -/
inductive SlotState where
  | free | filling | hashing | valid
  deriving DecidableEq, Repr

/-- A digest slot (R64). -/
structure Slot where
  state : SlotState
  /-- Present in every state but FREE. -/
  tag : Option BlockTag
  data : Bytes
  /-- The fills and rescan reads in flight whose comparison will use the slot. -/
  hold : Nat
  deriving DecidableEq, Repr

/-! ## The segment cache (05_the_segment_cache.md) -/

/-- A piece of a READ request, within one segment (R140). -/
structure Piece where
  segment : Nat
  start : Nat
  length : Nat
  deriving DecidableEq, Repr

/-- Cache line states (R82). -/
inductive LineState where
  | free | filling | hashing | valid | stale
  deriving DecidableEq, Repr

/-- Fill classes (R90). -/
inductive FillClass where
  | demand | readAhead | sweep
  deriving DecidableEq, Repr

/-- A READ request waiting for a line's fill, with its pieces in the line's segment (R86). The request is named by its
port and by the serial number of its queue entry. -/
structure Waiter where
  port : Port
  entry : Nat
  pieces : List Piece
  deriving DecidableEq, Repr

/-- A cache line (R82). -/
structure Line where
  state : LineState
  /-- Present in every state but FREE. -/
  tag : Option SegTag
  data : Bytes
  pins : Nat
  waiters : List Waiter
  fillClass : Option FillClass
  streamMark : Bool
  deriving DecidableEq, Repr

/-! ## The digest engine and the flash controller (04, 06) -/

/-- The owner of a unit read: the line, digest slot or rescan buffer it fills, with its tag; a segment's comparison names
the slot it holds (R71, R72). -/
inductive UnitOwner where
  | line (n : Fin 64) (tag : SegTag) (slot : Fin 8)
  | slot (n : Fin 8) (tag : BlockTag)
  | rescan (tag : SegTag) (slot : Fin 8)
  deriving DecidableEq, Repr

/-- A unit read or a unit of the digest engine; `discarded` at entry to SWITCHING (R41, R72). -/
structure HashUnit where
  owner : UnitOwner
  discarded : Bool
  deriving DecidableEq, Repr

/-- The digest engine: at most one unit being hashed and one waiting (R72). -/
structure DigestEngine where
  hashing : Option HashUnit
  waiting : Option HashUnit
  deriving DecidableEq, Repr

/-- What follows the flash reset sequence (R102, R108). -/
inductive AfterReset where
  | idle | readyWait | fuseLoad
  deriving DecidableEq, Repr

/-- The operation of the flash controller in progress (R102, R104 to R107). A WRITE or ERASE names its queue entry by its
serial number. -/
inductive FlashOp where
  | idle
  | readyWait
  | walkRead (read : WalkRead)
  | unitRead (unit : HashUnit) (address : Nat)
  | programming (address : Nat) (entry : Nat)
  | erasing (address : Nat) (entry : Nat)
  | resetting (after : AfterReset)
  deriving DecidableEq, Repr

/-- The lines that carry an operation's data field (12_formats.md, Flash operations). -/
inductive DataLanes where
  | none | fio0 | fio1 | fio0to3
  deriving DecidableEq, Repr

/-- One operation sent to the flash device: command byte, address bytes, dummy clocks, the lines of its data and, where the
part sends them, the data bytes (12_formats.md, Flash operations). -/
structure FlashFrame where
  command : Byte
  address : Bytes
  dummyClocks : Nat
  lanes : DataLanes
  data : Bytes
  deriving DecidableEq, Repr

/-- The flash controller: the operation in progress and the frames begun at the last event that began any. -/
structure FlashController where
  op : FlashOp
  sent : List FlashFrame
  deriving DecidableEq, Repr

/-- A read-ahead list entry (06_flash_scheduling.md, The read-ahead list). -/
structure ReadAhead where
  image : Nat
  segment : Nat
  origin : Port
  deriving DecidableEq, Repr

/-- The fetch arbiter: the port turn, the read-ahead list oldest first, and the sweep cursor (R114, R116, R118). -/
structure Arbiter where
  turn : Port
  readAhead : List ReadAhead
  sweepImage : Nat
  sweepSegment : Nat
  deriving DecidableEq, Repr

/-! ## The master ports (07, 08) -/

/-- Port states (R124). -/
inductive PortState where
  | held | released | rebooting
  deriving DecidableEq, Repr

/-- Response status codes (R146). -/
inductive RespStatus where
  | ok | short | denied | failed | badReq | done | writeFault | timeout | none
  deriving DecidableEq, Repr

/-- How a request holds one distinct segment (05, Looking up a request; R84). -/
inductive Hold where
  | pinned (line : Fin 64)
  | waiting (line : Fin 64)
  | outstanding
  deriving DecidableEq, Repr

/-- The hold of one distinct segment. -/
structure SegHold where
  segment : Nat
  hold : Hold
  deriving DecidableEq, Repr

/-- The fields of a READ entry (R128): its frame's, and those of its translation. -/
structure ReadBody where
  address : Nat
  length : Nat
  stream : Bool
  /-- The image translated to; none where the translation refused the READ. -/
  image : Option Nat
  delivered : Nat
  short : Bool
  pieces : List Piece
  holds : List SegHold
  deriving DecidableEq, Repr

/-- The residency of a segment (R98). -/
inductive Residency where
  | free | inFlight | valid | stale
  deriving DecidableEq, Repr

/-- A translation record with its window found (R142). -/
structure TranslationRecord where
  image : Nat
  included : Bool
  segment : Nat
  offset : Nat
  mode : WindowMode
  segState : SegState
  residency : Residency
  deriving DecidableEq, Repr

/-- The kinds of queue entry (R128). A TRANSLATE's record is none when no window was found. -/
inductive Body where
  | read (r : ReadBody)
  | translate (address : Nat) (record : Option TranslationRecord)
  | write (address : Nat) (data : Bytes)
  | erase (address : Nat)
  | permitOn
  | permitOff
  deriving DecidableEq, Repr

/-- A queue entry (R128). -/
structure Entry where
  /-- MODEL: the serial number that names the entry in waiter lists, bindings and flash operations. -/
  id : Nat
  tag : Byte
  body : Body
  /-- The status, once decided. -/
  status : Option RespStatus
  /-- A WRITE or ERASE that has been granted the flash (R113). -/
  granted : Bool
  deriving DecidableEq, Repr

/-- A frame running on a port: CS_N is low (07, Frames). -/
structure SpiFrame where
  /-- CS_N fell with the port RELEASED and the port has not left RELEASED since (R150). -/
  live : Bool
  /-- The port status byte formed at the fall (R126). -/
  status : Byte
  /-- The serial number of the head entry whose ready response was bound at the fall (R131). -/
  bound : Option Nat
  /-- A collect-window expiry held until the frame ends (R134). -/
  heldExpiry : Bool
  /-- Of a frame that was live until its port left RELEASED (R150): the bytes that a COLLECT would have been sent after the
  status byte, and the MODEL's index of the free value that says how many bytes had been driven (log entry 34). -/
  cut : Option (Nat × Bytes)
  deriving DecidableEq, Repr

/-- What the part drives on ASO or BSO in a frame (R126, R150). -/
inductive Driven where
  /-- Nothing: the port was not RELEASED at the fall of CS_N. -/
  | nothing
  /-- These bytes, and then filler of 0x00 for as long as the master clocks. -/
  | bytes (b : Bytes)
  /-- The same until the port left RELEASED; MODEL: `k` is the index of the free value that says after how many bytes. -/
  | untilCut (k : Nat) (b : Bytes)
  deriving DecidableEq, Repr

/-- One master port with its master reset line's hold timer. -/
structure PortUnit where
  state : PortState
  queue : List Entry
  overrun : Bool
  dropped : Bool
  badFrame : Bool
  /-- The hold is served; clear while the 10 ms hold timer runs (R147). -/
  holdServed : Bool
  frame : Option SpiFrame
  /-- What the part drove in the last frame that ended. -/
  sent : Driven
  deriving DecidableEq, Repr

/-! ## Option inputs, permit, rescan, service port (03, 09, 10, 11) -/

/-- The option input block (R47 to R51). -/
structure OptionBlock where
  word : Byte
  counters : Vector Nat 8
  /-- The debounce count D in force (R49). -/
  debounce : Nat
  /-- The per-input option event masks (R51). -/
  eventMask : Byte
  /-- The first sample since power-on or the release of RESET_N has been taken (R50). -/
  sampled : Bool
  deriving DecidableEq, Repr

/-- Permit states (09_the_print_permit.md). -/
inductive PermitState where
  | withheld | rising | granted | falling | tripped
  deriving DecidableEq, Repr

/-- The drive of a permit line (R160). -/
inductive Drive where
  | active | inactive | released
  deriving DecidableEq, Repr

/-- The six delays, in units of 10 us (R161). -/
structure Delays where
  rise : PerLine Nat
  fall : PerLine Nat
  deriving DecidableEq, Repr

/-- The sequence timer: the line whose change is pending, and the delay loaded. -/
structure SequenceTimer where
  line : PermitLine
  units : Nat
  deriving DecidableEq, Repr

/-- The kinds of failure a trip cause names (R171). -/
inductive CauseKind where
  | segment | block | rescan
  deriving DecidableEq, Repr

/-- The trip cause (R171). -/
structure TripCause where
  image : Nat
  kind : CauseKind
  index : Nat
  deriving DecidableEq, Repr

/-- The permit controller. The trip latch is set exactly while the trip cause is present (R171). -/
structure PermitController where
  state : PermitState
  lines : PerLine Drive
  delays : Option Delays
  timer : Option SequenceTimer
  cause : Option TripCause
  deriving DecidableEq, Repr

/-- Rescan buffer states (10_background_rescan.md). -/
inductive BufferState where
  | empty | filling | hashing
  deriving DecidableEq, Repr

/-- The rescan unit. -/
structure RescanUnit where
  interval : Option Nat
  /-- The rescan timer runs (R178). -/
  running : Bool
  debt : Nat
  cursorImage : Nat
  cursorSegment : Nat
  buffer : BufferState
  tag : Option SegTag
  data : Bytes
  passCount : BitVec 16
  deriving DecidableEq, Repr

/-- Result statuses (R199). -/
inductive ResultStatus where
  | noResult | busy | done | refused | fault | aborted
  deriving DecidableEq, Repr

/-- Refusal reasons (R199). -/
inductive RefusalReason where
  | none | notServing | tripLatched | imagesIncomplete | badSlot | activeSlot | alreadyRevoked | badCommand
  deriving DecidableEq, Repr

/-- The I2C transaction the part takes part in, and in a write transaction the restart recogniser (R190, R200): an ordinary
write transaction, a restart candidate with 0, 1 or 2 acknowledged data bytes, or an abandoned one. -/
inductive Transaction where
  | none
  | reading
  | writing
  | candidate (bytes : Nat)
  | abandoned
  deriving DecidableEq, Repr

/-- The records that a read transaction captures whole (R192). -/
inductive Record where
  | status | event | command | identification | select | image
  deriving DecidableEq, Repr

/-- The service port (11_service_port.md). -/
structure ServicePort where
  /-- The levels of SADR1 and SADR0 at the last sampling (R189). -/
  straps : BitVec 2
  pointer : BitVec 7
  autoIncrement : Bool
  select : Nat
  flags : Byte
  mask : Byte
  imagePeriod : Nat
  imageCounter : Nat
  passPeriod : Nat
  passCounter : Nat
  argument : Byte
  code : Byte
  result : ResultStatus
  reason : RefusalReason
  ignored : Bool
  transaction : Transaction
  /-- The record that the running read transaction has captured, and its bytes (R192). -/
  capture : Option (Record × Bytes)
  pendingRestart : Bool
  /-- Whether the part acknowledged the last byte it received. -/
  acked : Bool
  /-- The bytes sent in the read transaction that runs or ran last. -/
  sent : Bytes
  deriving DecidableEq, Repr

/-- The reasons a step could stop with a fault. The spec gives the block no stop: nothing raises one (log entry 2). -/
inductive Fault where
  deriving DecidableEq, Repr

/-- The reasons a step could refuse a command. -/
inductive Refusal where
  /-- Raised by `exec` for a command that has no meaning yet; none is left, so nothing raises it. Safe. -/
  | notModelled (mnemonic : String)
  deriving DecidableEq, Repr

/-- The whole part. -/
structure State where
  /-- The supplies are good. -/
  supplies : Bool
  /-- The level of RESET_N (true: high). -/
  resetN : Bool
  fuseArray : FuseArray
  fuseImage : Option FuseImage
  fuseController : FuseController
  manifest : ManifestUnit
  images : List Image
  store : List StoreEntry
  /-- The segment map: one list of segment states for each image, in image index order; joined, it is R60's map. -/
  segMap : List (List SegState)
  slots : Vector Slot 8
  /-- The VALID slots, least recent first (R64). -/
  slotLru : List (Fin 8)
  lines : Vector Line 64
  /-- The VALID lines, least recent first (R93). -/
  lineLru : List (Fin 64)
  engine : DigestEngine
  flash : FlashController
  arbiter : Arbiter
  portA : PortUnit
  portB : PortUnit
  /-- Port B's permit request (R144). -/
  permitRequest : Bool
  options : OptionBlock
  permit : PermitController
  rescan : RescanUnit
  service : ServicePort
  /-- MODEL: the serial number of the next queue entry (log entry 22). -/
  nextEntry : Nat
  /-- MODEL: the index of the next free value (log entry 1). -/
  nextFree : Nat
  /-- MODEL: the commands waiting, first in, first out (log entry 8). -/
  pending : List Instr
  deriving DecidableEq, Repr

/-! ## Reset -/

/-- A fuse array with every fuse unburned (R4, the column Reading when unburned). -/
def FuseArray.unburned : FuseArray where
  primary := Vector.replicate 4 ⟨false, List.replicate 32 0⟩
  recovery := ⟨false, List.replicate 32 0⟩
  revoke := Vector.replicate 4 .unburned
  floor := Vector.replicate 32 .unburned
  sizeFirst := false
  sizeSecond := false
  recoverySize := Vector.replicate 8 false
  autoRecovery := false
  lineLevel := ⟨.high, .high, .high⟩
  tripAction := ⟨.inactive, .inactive, .inactive⟩

/-- The manifest unit with nothing held and every code NOT_TRIED (R17). -/
def ManifestUnit.cleared : ManifestUnit where
  state := .starting
  startStep := none
  lockedCause := none
  errorBank0 := .notTried
  errorBank1 := .notTried
  errorRecovery := .notTried
  levelBank0 := none
  levelBank1 := none
  candidates := []
  current := none
  stack := []
  walkRead := none
  signatureJob := none
  summary := none

/-- A FREE digest slot with its data cleared. -/
def Slot.blank : Slot := ⟨.free, none, List.replicate Config.segmentBytes 0, 0⟩

/-- A FREE cache line with its data cleared. -/
def Line.blank : Line := ⟨.free, none, List.replicate Config.segmentBytes 0, 0, [], none, false⟩

/-- A HELD port with its line asserted and its hold running (R124, R147). -/
def PortUnit.cleared : PortUnit := ⟨.held, [], false, false, false, false, none, .nothing⟩

/-- The option input block after power-on or RESET_N, before its first sample (R50). -/
def OptionBlock.cleared : OptionBlock := ⟨0, Vector.replicate 8 0, 16, 0, false⟩

/-- The permit controller after power-on or RESET_N, before the fuse load (R9, R174); its lines released while the supplies are not
good are a DESIGN CHOICE (log entry 35). -/
def PermitController.cleared : PermitController :=
  ⟨.withheld, ⟨.released, .released, .released⟩, none, none, none⟩

/-- The rescan unit after power-on or RESET_N (R188). -/
def RescanUnit.cleared : RescanUnit := ⟨none, false, 0, 0, 0, .empty, none, List.replicate Config.segmentBytes 0, 0⟩

/-- The service port after power-on or RESET_N with the given straps (R201). A transaction that runs is dropped with its capture,
and a restart candidate with it: R201's table says nothing of them (DESIGN CHOICE, log entry 36). -/
def ServicePort.cleared (straps : BitVec 2) : ServicePort where
  straps := straps
  pointer := 0
  autoIncrement := false
  select := 0
  flags := 0
  mask := 0
  imagePeriod := 1
  imageCounter := 0
  passPeriod := 1
  passCounter := 0
  argument := 0
  code := 0
  result := .noResult
  reason := .none
  ignored := false
  transaction := .none
  capture := none
  pendingRestart := false
  acked := false
  sent := []

/-- A read status operation (12_formats.md, Flash operations). -/
def FlashFrame.readStatus : FlashFrame := ⟨0x05, [], 0, .fio1, []⟩

/-- The part right after power-on, RESET_N high and straps 00: STARTING in its flash-ready wait (R17, R18). The fuse array is
that of a part not yet personalised (log entry 3); values the spec states no reset for are log entry 21. -/
def State.reset : State where
  supplies := true
  resetN := true
  fuseArray := FuseArray.unburned
  fuseImage := none
  fuseController := .idle
  manifest := { ManifestUnit.cleared with startStep := some .flashWait }
  images := []
  store := []
  segMap := []
  slots := Vector.replicate 8 Slot.blank
  slotLru := []
  lines := Vector.replicate 64 Line.blank
  lineLru := []
  engine := ⟨none, none⟩
  flash := ⟨.readyWait, [FlashFrame.readStatus]⟩
  arbiter := ⟨.a, [], 0, 0⟩
  portA := PortUnit.cleared
  portB := PortUnit.cleared
  permitRequest := false
  options := OptionBlock.cleared
  permit := PermitController.cleared
  rescan := RescanUnit.cleared
  service := ServicePort.cleared 0
  nextEntry := 0
  nextFree := 0
  pending := []

end Sys2Proof.Machine
end

