-- ==== Sys2Proof/Machine/Flags.lean ====
section
/-! DEFINITION. Machine/Flags.lean: the service port's event flags, their masks and period counters, SVC_INT_N, and the
ports' sticky flags (11_service_port.md; R127). -/

namespace Sys2Proof.Machine

/-- The eight events, in the order of their flag bits (12_formats.md, Service record map). -/
inductive Event where
  | walkDone | imageComplete | imageFailed | optionChange | permitChange | rescanPass | fuseDone | portFault
  deriving DecidableEq, Repr

/-- The bit of an event in the event flags, the clear byte and the event mask. -/
def Event.bit : Event → Nat
  | .walkDone => 0
  | .imageComplete => 1
  | .imageFailed => 2
  | .optionChange => 3
  | .permitChange => 4
  | .rescanPass => 5
  | .fuseDone => 6
  | .portFault => 7

/-- The byte with only bit `k` set. -/
def oneHot (k : Nat) : Byte := 1#8 <<< k

/-- The flag that a counted event sets. -/
def periodFlag : PeriodEvent → Event
  | .imageComplete => .imageComplete
  | .rescanPass => .rescanPass

/-- An event's flag. -/
def ServicePort.flag (v : ServicePort) (e : Event) : Bool := v.flags.getLsbD e.bit

/-- Sets an event's flag; a flag already set stays set (R195). -/
def ServicePort.setFlag (v : ServicePort) (e : Event) : ServicePort := { v with flags := v.flags ||| oneHot e.bit }

/-- The period of a counted event. -/
def ServicePort.period (v : ServicePort) : PeriodEvent → Nat
  | .imageComplete => v.imagePeriod
  | .rescanPass => v.passPeriod

/-- The counter of a counted event. -/
def ServicePort.counter (v : ServicePort) : PeriodEvent → Nat
  | .imageComplete => v.imageCounter
  | .rescanPass => v.passCounter

/-- Sets the counter of a counted event. -/
def ServicePort.setCounter (v : ServicePort) (e : PeriodEvent) (n : Nat) : ServicePort :=
  match e with
  | .imageComplete => { v with imageCounter := n }
  | .rescanPass => { v with passCounter := n }

/-- Sets the period of a counted event and returns its counter to 0 (R196). -/
def ServicePort.setPeriod (v : ServicePort) (e : PeriodEvent) (n : Nat) : ServicePort :=
  match e with
  | .imageComplete => { v with imagePeriod := n, imageCounter := 0 }
  | .rescanPass => { v with passPeriod := n, passCounter := 0 }

/-- A counter that holds: it stands at its period, which is not 0 (R196). -/
def ServicePort.held (v : ServicePort) (e : PeriodEvent) : Bool := 1 ≤ v.period e && v.period e ≤ v.counter e

/-- An occurrence of a counted event (the table of R196). -/
def ServicePort.occurrence (v : ServicePort) (e : PeriodEvent) : ServicePort :=
  if v.period e = 0 then v
  else if v.held e then v
  else if v.counter e + 1 < v.period e then v.setCounter e (v.counter e + 1)
  else if v.flag (periodFlag e) then v.setCounter e (v.period e)
  else (v.setFlag (periodFlag e)).setCounter e 0

/-- After a clear byte: a flag the byte cleared whose counter is held sets again, and the counter returns to 0 (R196). -/
def ServicePort.resetHeld (v : ServicePort) (before byte : Byte) (e : PeriodEvent) : ServicePort :=
  if before.getLsbD (periodFlag e).bit && byte.getLsbD (periodFlag e).bit && v.held e then
    (v.setFlag (periodFlag e)).setCounter e 0
  else v

/-- A byte written to the clear field (R195, R196). -/
def ServicePort.clear (v : ServicePort) (byte : Byte) : ServicePort :=
  let w := { v with flags := v.flags &&& ~~~byte }
  (w.resetHeld v.flags byte .imageComplete).resetHeld v.flags byte .rescanPass

/-- All flags clear and both counters 0: entry to STARTING (R201). -/
def ServicePort.clearAll (v : ServicePort) : ServicePort := { v with flags := 0, imageCounter := 0, passCounter := 0 }

/-- Raises an event at the service port (R195). -/
def State.raise (s : State) (e : Event) : State := { s with service := s.service.setFlag e }

/-- Counts an occurrence at the service port (R196). -/
def State.occur (s : State) (e : PeriodEvent) : State := { s with service := s.service.occurrence e }

/-- The part runs: the supplies are good and RESET_N is high (R17). -/
def State.live (s : State) : Bool := s.supplies && s.resetN

/-- SVC_INT_N is driven low: a flag is set whose mask bit is clear (R197). Otherwise it is released. -/
def State.svcIntLow (s : State) : Bool := s.live && (s.service.flags &&& ~~~s.service.mask) != 0

/-- The sticky flags of a port (R127). -/
inductive Sticky where
  | overrun | dropped | badFrame
  deriving DecidableEq, Repr

/-- Sets a sticky flag of a port unit. -/
def PortUnit.setSticky (u : PortUnit) : Sticky → PortUnit
  | .overrun => { u with overrun := true }
  | .dropped => { u with dropped := true }
  | .badFrame => { u with badFrame := true }

/-- Clears the sticky flags that a status byte reported set (R135). -/
def PortUnit.clearReported (u : PortUnit) (status : Byte) : PortUnit :=
  { u with
    overrun := u.overrun && !status.getLsbD 4
    dropped := u.dropped && !status.getLsbD 5
    badFrame := u.badFrame && !status.getLsbD 6 }

end Sys2Proof.Machine
end

