-- ==== Sys2Proof/Machine/Ops.lean ====
section
/-! DEFINITION. Machine/Ops.lean: the operations the commands share, block by block: fuses, images, lines, slots, queues,
release, permit, image failure, and the entries to STARTING and SWITCHING. -/

namespace Sys2Proof.Machine

/-- `t` where `c` holds, `s` elsewhere: a command whose event cannot occur in `s` leaves `s` as it is (log entry 5). -/
def State.when (s : State) (c : Bool) (t : State) : State := if c then t else s

/-! ## One value for each permit line -/

/-- The value of a line. -/
def PerLine.get {α : Type} (x : PerLine α) : PermitLine → α
  | .pl0 => x.pl0
  | .pl1 => x.pl1
  | .pl2 => x.pl2

/-- Sets the value of a line. -/
def PerLine.set {α : Type} (x : PerLine α) (l : PermitLine) (v : α) : PerLine α :=
  match l with
  | .pl0 => { x with pl0 := v }
  | .pl1 => { x with pl1 := v }
  | .pl2 => { x with pl2 := v }

/-- Applies a function to the value of each line. -/
def PerLine.map {α β : Type} (x : PerLine α) (f : α → β) : PerLine β := ⟨f x.pl0, f x.pl1, f x.pl2⟩

/-! ## Fuses and the flash map (01) -/

/-- What a fuse reads at a load (R6). -/
def FuseCell.reads : FuseCell → Bool
  | .unburned => false
  | .burned => true
  | .unsettled k => Config.unsettledFuseReadsBurned k

/-- A fuse after a burn cut short or a failed read-back: unsettled, unless it was burned for good already (R4, R6). -/
def FuseCell.unsettle (c : FuseCell) (k : Nat) : FuseCell :=
  match c with
  | .burned => .burned
  | _ => .unsettled k

/-- The flash size in MiB that the two size fuses read (R4). -/
def flashMiBOf (first second : Bool) : Nat := if second then 64 else if first then 32 else 16

/-- The fuse image that a load writes (R4, R5). -/
def FuseArray.load (a : FuseArray) : FuseImage where
  primary := a.primary
  recovery := a.recovery
  revoked := a.revoke.map FuseCell.reads
  floor := a.floor.map FuseCell.reads
  flashMiB := flashMiBOf a.sizeFirst a.sizeSecond
  recoveryMiB := a.recoverySize.toList.countP id
  autoRecovery := a.autoRecovery
  lineLevel := a.lineLevel
  tripAction := a.tripAction

/-- The rollback floor: how many floor fuses read burned (R8). -/
def FuseImage.floorLevel (f : FuseImage) : Nat := f.floor.toList.countP id

/-- The lowest-numbered floor fuse that reads unburned (R8). -/
def FuseImage.nextFloorFuse (f : FuseImage) : Option (Fin 32) :=
  (List.finRange 32).find? fun k => !f.floor[k]

/-- The flash size F in bytes (R1). -/
def FuseImage.flashBytes (f : FuseImage) : Nat := f.flashMiB * Config.mib

/-- The recovery size Rz in bytes (R1). -/
def FuseImage.recoveryBytes (f : FuseImage) : Nat := f.recoveryMiB * Config.mib

/-- The bank size (F - Rz) / 2 (R1). -/
def FuseImage.bankBytes (f : FuseImage) : Nat := (f.flashBytes - f.recoveryBytes) / 2

/-- The flash map has a recovery region (R1). -/
def FuseImage.hasRecovery (f : FuseImage) : Bool := 0 < f.recoveryMiB

/-- The base address of a region (R1). -/
def FuseImage.regionBase (f : FuseImage) : Source → Nat
  | .bank .bank0 => 0
  | .bank .bank1 => f.bankBytes
  | .recovery => f.flashBytes - f.recoveryBytes

/-- The size of a region (R1, R2). -/
def FuseImage.regionBytes (f : FuseImage) : Source → Nat
  | .bank _ => f.bankBytes
  | .recovery => f.recoveryBytes

/-- The region a flash address lies in, or none at or above F (R2). -/
def FuseImage.regionOf (f : FuseImage) (address : Nat) : Option Source :=
  if f.flashBytes ≤ address then none
  else if f.flashBytes - f.recoveryBytes ≤ address then some .recovery
  else if f.bankBytes ≤ address then some (.bank .bank1)
  else some (.bank .bank0)

/-- Cuts off a burn in progress: no completion, no read-back, and the fuse is left unsettled (R6, R10, R16). -/
def State.cutBurn (s : State) : State :=
  match s.fuseController with
  | .idle => s
  | .burningFloor k _ =>
    { s with
      fuseController := .idle
      nextFree := s.nextFree + 1
      fuseArray := { s.fuseArray with floor := s.fuseArray.floor.set k (s.fuseArray.floor[k].unsettle s.nextFree) } }
  | .burningRevoke k =>
    { s with
      fuseController := .idle
      nextFree := s.nextFree + 1
      fuseArray := { s.fuseArray with revoke := s.fuseArray.revoke.set k (s.fuseArray.revoke[k].unsettle s.nextFree) } }

/-! ## The verifier -/

/-- The part serves: SERVING or RECOVERY_SERVING. -/
def State.isServing (s : State) : Bool := s.manifest.state == .serving || s.manifest.state == .recoveryServing

/-- The active bank (R3). -/
def State.activeBank (s : State) : Option Bank :=
  match s.manifest.state, s.manifest.summary with
  | .serving, some ⟨.bank b, _⟩ => some b
  | _, _ => none

/-- The active root's verified level and key slot (R11, R14). -/
def State.activeRoot (s : State) : Option RootInfo :=
  match s.manifest.summary with
  | some m => m.root
  | none => none

/-! ## Images, segments and blocks (03, 04) -/

/-- An owner names a port (R149). -/
def Owner.sees : Owner → Port → Bool
  | .a, .a => true
  | .b, .b => true
  | .both, _ => true
  | _, _ => false

/-- The other port. -/
def otherPort : Port → Port
  | .a => .b
  | .b => .a

/-- Changes one image record. -/
def State.modImage (s : State) (i : Nat) (f : Image → Image) : State := { s with images := s.images.modify i f }

/-- The state of a segment in the segment map (R60). A segment the map does not hold cannot be proven
(DESIGN CHOICE, log entry 25). -/
def State.segState (s : State) (i g : Nat) : SegState := (s.segMap.getD i []).getD g .failed

/-- Sets the state of a segment (R60). -/
def State.setSegState (s : State) (i g : Nat) (x : SegState) : State :=
  { s with segMap := s.segMap.modify i fun m => m.set g x }

/-- The digest block of a segment (R65). -/
def blockOf (g : Nat) : Nat := g / Config.blockSegments

/-- The place of block `b` of image `i` in the block digest store (R63). -/
def State.storeIndex (s : State) (i b : Nat) : Nat :=
  match s.images[i]? with
  | some im => im.firstStore + b
  | none => b

/-- The store entry of block `b` of image `i` (R63). -/
def State.storeEntry (s : State) (i b : Nat) : Option StoreEntry := s.store[s.storeIndex i b]?

/-- The block's store entry is FAILED (R63). -/
def State.blockFailed (s : State) (i b : Nat) : Bool :=
  match s.storeEntry i b with
  | some e => e.state == .failed
  | none => false

/-- Entry `k` of a digest block (12_formats.md, Digest block). -/
def digestEntry (data : Bytes) (k : Nat) : Digest := slice data (32 * k) 32

/-- An image's condition list holds for an option word (R46). -/
def conditionsHold (word : Byte) (cs : List Condition) : Bool :=
  cs.all fun c => word.getLsbD c.bit.val == (c.sense == .set)

/-- Every included image is COMPLETE (R11, R162). -/
def State.allIncludedComplete (s : State) : Bool := s.images.all fun im => !im.included || im.state == .complete

/-! ## Digest slots (R64 to R71) -/

/-- Changes one digest slot. -/
def State.modSlot (s : State) (n : Fin 8) (f : Slot → Slot) : State := { s with slots := s.slots.set n (f s.slots[n]) }

/-- The slot in one of the given states that carries a tag. -/
def State.findSlot (s : State) (t : BlockTag) (p : SlotState → Bool) : Option (Fin 8) :=
  (List.finRange 8).find? fun n => p s.slots[n].state && s.slots[n].tag == some t

/-- Moves a VALID slot to the most-recent end of its order (R64). -/
def State.touchSlot (s : State) (n : Fin 8) : State := { s with slotLru := s.slotLru.erase n ++ [n] }

/-- A slot made FREE, its data left as it is (R64, R69). -/
def Slot.freed (x : Slot) : Slot := { x with state := .free, tag := none, hold := 0 }

/-- The slot a digest block fetch takes: the lowest FREE one, else the least recent VALID one with no hold (R66). -/
def State.chooseSlot (s : State) : Option (Fin 8) :=
  ((List.finRange 8).find? fun n => s.slots[n].state == .free).or
    (s.slotLru.find? fun n => s.slots[n].state == .valid && s.slots[n].hold == 0)

/-- Takes and releases a hold (R71). -/
def State.takeHold (s : State) (n : Fin 8) : State := s.modSlot n fun x => { x with hold := x.hold + 1 }

/-- The end of a comparison that used a slot: the hold falls by 1 and the slot becomes the most recent (R64, R71). -/
def State.endHold (s : State) (n : Fin 8) : State :=
  (s.modSlot n fun x => { x with hold := x.hold - 1 }).touchSlot n

/-! ## Cache lines (R82 to R96) -/

/-- Changes one cache line. -/
def State.modLine (s : State) (n : Fin 64) (f : Line → Line) : State := { s with lines := s.lines.set n (f s.lines[n]) }

/-- The line in one of the given states that carries a tag. -/
def State.findLine (s : State) (t : SegTag) (p : LineState → Bool) : Option (Fin 64) :=
  (List.finRange 64).find? fun n => p s.lines[n].state && s.lines[n].tag == some t

/-- FILLING or HASHING. -/
def LineState.inFlight (x : LineState) : Bool := x == .filling || x == .hashing

/-- FILLING, HASHING or VALID. -/
def LineState.present (x : LineState) : Bool := x.inFlight || x == .valid

/-- A line made FREE, its data left as it is (R92, R94, R100). -/
def Line.freed (x : Line) : Line :=
  { x with state := .free, tag := none, pins := 0, waiters := [], fillClass := none, streamMark := false }

/-- Moves a line to the most-recent end of the LRU order (R93). -/
def State.touchLine (s : State) (n : Fin 64) : State := { s with lineLru := s.lineLru.erase n ++ [n] }

/-- Moves a line to the least-recent end of the LRU order (R93, R95). -/
def State.demoteLine (s : State) (n : Fin 64) : State := { s with lineLru := n :: s.lineLru.erase n }

/-- Takes a line out of the LRU order (R93). -/
def State.leaveLru (s : State) (n : Fin 64) : State := { s with lineLru := s.lineLru.erase n }

/-- Makes a line FREE (R92, R94, R96). -/
def State.freeLine (s : State) (n : Fin 64) : State := (s.modLine n Line.freed).leaveLru n

/-- The line a segment fill takes: the lowest FREE one, else the least recent VALID one with no pin (R88). -/
def State.chooseLine (s : State) : Option (Fin 64) :=
  ((List.finRange 64).find? fun n => s.lines[n].state == .free).or
    (s.lineLru.find? fun n => s.lines[n].state == .valid && s.lines[n].pins == 0)

/-- A request takes its pin on a VALID line: the line becomes the most recent, and a request without the STREAM mark clears
the line's stream mark (R85, R93, R95). -/
def State.takePin (s : State) (n : Fin 64) (stream : Bool) : State :=
  (s.modLine n fun x => { x with pins := x.pins + 1, streamMark := x.streamMark && stream }).touchLine n

/-- Releases one pin. `stream`: at the end of the COLLECT frame that takes a STREAM request's response. A STALE line left at
0 becomes FREE (R94); a VALID line left at 0 by a STREAM collection, or with its stream mark set, moves to the least-recent
end; one left above 0 by a STREAM collection has its mark set (R95). -/
def State.releasePin (s : State) (n : Fin 64) (stream : Bool) : State :=
  let x := s.lines[n]
  let s' := s.modLine n fun y => { y with pins := y.pins - 1 }
  match x.state with
  | .stale => if x.pins ≤ 1 then s'.freeLine n else s'
  | .valid =>
    if x.pins ≤ 1 then
      if stream || x.streamMark then (s'.modLine n fun y => { y with streamMark := false }).demoteLine n else s'
    else if stream then s'.modLine n fun y => { y with streamMark := true } else s'
  | _ => s'

/-- Takes a request off a line's waiter list (R86). -/
def State.leaveWaiters (s : State) (n : Fin 64) (p : Port) (id : Nat) : State :=
  s.modLine n fun x => { x with waiters := x.waiters.filter fun w => !(w.port == p && w.entry == id) }

/-! ## Ports and queues (07) -/

/-- A port. -/
def State.port (s : State) : Port → PortUnit
  | .a => s.portA
  | .b => s.portB

/-- Changes a port. -/
def State.modPort (s : State) (p : Port) (f : PortUnit → PortUnit) : State :=
  match p with
  | .a => { s with portA := f s.portA }
  | .b => { s with portB := f s.portB }

/-- Changes a port's queue. -/
def State.modQueue (s : State) (p : Port) (f : List Entry → List Entry) : State :=
  s.modPort p fun u => { u with queue := f u.queue }

/-- The head entry's response is ready (R130): its status is decided. -/
def PortUnit.headReady (u : PortUnit) : Bool :=
  match u.queue with
  | e :: _ => e.status.isSome
  | [] => false

/-- The ready line ARDY or BRDY is high (R130). While the supplies are not good it is shown low (DESIGN CHOICE, log entry 35). -/
def State.readyLine (s : State) (p : Port) : Bool := (s.port p).headReady

/-- The collect window of the head's ready response runs: begun when the response became ready, not yet expired (R133; a view,
log entry 16). -/
def PortUnit.windowRuns (u : PortUnit) : Bool :=
  u.headReady && !(match u.frame with | some f => f.heldExpiry | none => false)

/-- The master reset line is released (driven high) exactly while the port is RELEASED (R147). While the supplies are not good, when
the rule gives the line no level, it is shown asserted too (DESIGN CHOICE, log entry 33). -/
def State.resetReleased (s : State) (p : Port) : Bool := (s.port p).state == .released

/-- Sets a sticky flag and raises PORT_FAULT (R127). -/
def State.stick (s : State) (p : Port) (x : Sticky) : State := (s.modPort p fun u => u.setSticky x).raise .portFault

/-- The holds of an entry: none but a READ's has any. -/
def Entry.holds (e : Entry) : List SegHold :=
  match e.body with
  | .read r => r.holds
  | _ => []

/-- The STREAM mark of an entry (R95). -/
def Entry.stream (e : Entry) : Bool :=
  match e.body with
  | .read r => r.stream
  | _ => false

/-- The entry with other holds. -/
def Entry.withHolds (e : Entry) (hs : List SegHold) : Entry :=
  match e.body with
  | .read r => { e with body := .read { r with holds := hs } }
  | _ => e

/-- A READ entry translated to image `i`. -/
def Entry.readsImage (e : Entry) (i : Nat) : Bool :=
  match e.body with
  | .read r => r.image == some i
  | _ => false

/-- Pinned on a line. -/
def Hold.isPinned : Hold → Bool
  | .pinned _ => true
  | _ => false

/-- Decides a READ whose every distinct segment is pinned, with OK or SHORT (R84, R130, R146). -/
def Entry.settle (e : Entry) : Entry :=
  match e.body with
  | .read r =>
    if e.status.isNone && r.image.isSome && r.holds.all (fun h => h.hold.isPinned) then
      { e with status := some (if r.short then .short else .ok) }
    else e
  | _ => e

/-- Gives up one hold of a request: a pin is released, a waiter leaves its list (R86, R94). -/
def State.dropHold (s : State) (p : Port) (id : Nat) (stream : Bool) (h : SegHold) : State :=
  match h.hold with
  | .pinned n => s.releasePin n stream
  | .waiting n => s.leaveWaiters n p id
  | .outstanding => s

/-- Gives up every hold of an entry that leaves its queue or ends (R94); `stream` as in `releasePin`. The holds go in the order
of their segments' first pieces, so that of several lines that one event sends to the least-recent end (R95) the last piece's
ends nearest to it (DESIGN CHOICE, log entry 32). -/
def State.detach (s : State) (p : Port) (e : Entry) (stream : Bool) : State :=
  e.holds.foldl (fun t h => t.dropHold p e.id stream h) s

/-- An undecided READ entry, ended with a refusal: it holds nothing more (R54, R70, R77). -/
def Entry.ended (e : Entry) (x : RespStatus) : Entry := { e.withHolds [] with status := some x }

/-- Ends the undecided READ entries of one port that `q` picks, with status `x` (R54, R70, R77, R94). -/
def State.endReadsOn (s : State) (p : Port) (q : Entry → Bool) (x : RespStatus) : State :=
  let pick := fun e : Entry => e.status.isNone && q e
  let t := ((s.port p).queue.filter pick).foldl (fun t e => t.detach p e false) s
  t.modQueue p fun es => es.map fun e => if pick e then e.ended x else e

/-- Ends the undecided READ entries of both ports that `q` picks (R54, R70, R77). The spec gives their pins' releases no order among
themselves; the model releases Port A's entries before Port B's, each port's in queue order (DESIGN CHOICE, log entry 32). -/
def State.endReads (s : State) (q : Entry → Bool) (x : RespStatus) : State :=
  (s.endReadsOn .a q x).endReadsOn .b q x

/-- The entry reads image `i` and has a piece, in a segment that `g` picks, not pinned on a line (R70, R77). -/
def Entry.needs (e : Entry) (i : Nat) (g : Nat → Bool) : Bool :=
  e.readsImage i && e.holds.any fun h => g h.segment && !h.hold.isPinned

/-- Empties a port's queue without responses: every entry releases its pins and leaves its waiter lists (R136),
in queue order (DESIGN CHOICE, log entry 32). -/
def State.emptyQueue (s : State) (p : Port) : State :=
  ((s.port p).queue.foldl (fun t e => t.detach p e false) s).modQueue p fun _ => []

/-- The port leaves RELEASED or stays out of it: state `x`, its line asserted and its hold timer started afresh (R147, R148). -/
def PortUnit.assert (u : PortUnit) (x : PortState) : PortUnit := { u with state := x, holdServed := false }

/-! ## Responses and frames cut short (R131, R132, R146; 12_formats.md, Response header and Translation record) -/

/-- The code of a status. -/
def RespStatus.code : RespStatus → Byte
  | .ok => 0x00
  | .short => 0x01
  | .denied => 0x02
  | .failed => 0x03
  | .badReq => 0x04
  | .done => 0x05
  | .writeFault => 0x06
  | .timeout => 0x07
  | .none => 0x0F

/-- The response header: tag, status, delivered length. -/
def responseHeader (tag : Byte) (x : RespStatus) (length : Nat) : Bytes := [tag, x.code] ++ be16 length

/-- Codes of the translation record. -/
def WindowMode.code : WindowMode → Byte
  | .linear => 0x01
  | .mirror => 0x02
def SegState.code : SegState → Byte
  | .unverified => 0x00
  | .verified => 0x01
  | .failed => 0x02
def Residency.code : Residency → Byte
  | .free => 0x00
  | .inFlight => 0x01
  | .valid => 0x02
  | .stale => 0x03

/-- The ten bytes of a translation record. -/
def recordBytes : Option TranslationRecord → Bytes
  | none => zeros 10
  | some r =>
    [0x01, BitVec.ofNat 8 r.image, BitVec.ofNat 8 (bit r.included), r.mode.code] ++ be16 r.segment ++ be16 r.offset ++
      [r.segState.code, r.residency.code]

/-- The bytes of a piece, from the line on which its segment is pinned (R131). -/
def State.pieceBytes (s : State) (hs : List SegHold) (x : Piece) : Bytes :=
  match hs.find? fun h => h.segment == x.segment with
  | some ⟨_, .pinned n⟩ => slice s.lines[n].data x.start x.length
  | _ => []

/-- A response: the header and the data of a decided entry (R131, R146). -/
def State.response (s : State) (e : Entry) (x : RespStatus) : Bytes :=
  if x = .ok || x = .short then
    match e.body with
    | .read r => responseHeader e.tag x r.delivered ++ r.pieces.flatMap (s.pieceBytes r.holds)
    | .translate _ record => responseHeader e.tag x 10 ++ recordBytes record
    | _ => responseHeader e.tag x 0
  else responseHeader e.tag x 0

/-- What a COLLECT frame sends after the status byte, filler apart: the bound response, or NONE's header (R131, R132). -/
def State.answer (s : State) (p : Port) (f : SpiFrame) : Bytes :=
  match f.bound, (s.port p).queue with
  | some id, e :: _ =>
    match e.status with
    | some x => if e.id = id then s.response e x else responseHeader 0 .none 0
    | none => responseHeader 0 .none 0
  | _, _ => responseHeader 0 .none 0

/-- The first `n` bytes of a run followed by filler without end (R126, R131). -/
def withFiller (n : Nat) (b : Bytes) : Bytes := b.take n ++ zeros (n - b.length)

/-- The `k`-th byte that the part drives in a frame, if the master clocks it; none where it drives nothing (R126, R150). -/
def Driven.byte : Driven → Nat → Option Byte
  | .nothing, _ => none
  | .bytes b, k => some (b.getD k 0)
  | .untilCut n b, k => if k < Config.bytesBeforeCut n then some (b.getD k 0) else none

/-- A live frame runs on the port. -/
def PortUnit.frameLive (u : PortUnit) : Bool :=
  match u.frame with
  | some f => f.live
  | none => false

/-- A frame cut short: the part takes it no further and drives nothing more. What a COLLECT had been sent so far depends on a
queue and lines that go at the same event, so the whole answer is kept (R150; log entry 34). -/
def SpiFrame.cutShort (f : SpiFrame) (k : Nat) (answer : Bytes) : SpiFrame :=
  { f with live := false, bound := none, heldExpiry := false, cut := some (k, answer) }

/-- The port leaves RELEASED: a live frame that runs on it is cut short (R150). -/
def State.cutFrame (s : State) (p : Port) : State :=
  match (s.port p).frame with
  | some f =>
    if f.live then
      let t := s.modPort p fun u => { u with frame := some (f.cutShort s.nextFree (s.answer p f)) }
      { t with nextFree := s.nextFree + 1 }
    else s
  | none => s

/-- Both ports leave RELEASED. -/
def State.cutFrames (s : State) : State := (s.cutFrame .a).cutFrame .b

/-! ## Entries leave, ports leave RELEASED (05, 07, 08) -/

/-- Removes read-ahead list entries (R117). -/
def State.dropReadAhead (s : State) (q : ReadAhead → Bool) : State :=
  { s with arbiter := { s.arbiter with readAhead := s.arbiter.readAhead.filter fun r => !q r } }

/-! ## Release (08) -/

/-- The release condition of a port (R149). -/
def State.releaseCondition (s : State) (p : Port) : Bool :=
  s.isServing && (s.images.any fun im => im.included && im.owner.sees p) &&
    (s.images.all fun im =>
      !(im.included && im.owner.sees p && im.releaseMode == .eager) || im.state == .complete) &&
    (s.port p).holdServed

/-- Judges a port that is HELD or REBOOTING, and releases it when its release condition holds (R149, R150). -/
def State.judgeRelease (s : State) (p : Port) : State :=
  if (s.port p).state != .released && s.releaseCondition p then s.modPort p fun u => { u with state := .released }
  else s

/-- Judges both ports. -/
def State.judgeReleases (s : State) : State := (s.judgeRelease .a).judgeRelease .b

/-! ## The print permit (09) -/

/-- The permit is eligible (R162). -/
def State.eligible (s : State) : Bool :=
  s.manifest.state == .serving && s.allIncludedComplete && s.permit.cause.isNone

/-- Eligible and request both hold (R164). -/
def State.mayRise (s : State) : Bool := s.eligible && s.permitRequest

/-- The delays in force; none is used before a walk has set them (R161; DESIGN CHOICE for that unreachable case: 0, log entry
23). -/
def PermitController.delaysInForce (c : PermitController) : Delays :=
  c.delays.getD ⟨⟨0, 0, 0⟩, ⟨0, 0, 0⟩⟩

/-- Changes the permit controller. -/
def State.modPermit (s : State) (f : PermitController → PermitController) : State := { s with permit := f s.permit }

/-- In RISING, the lines of `ls` still to rise: the next one's rise delay starts, a delay of 0 expires at once, and after the
last one the permit enters GRANTED and PERMIT_CHANGE is raised (R161, R165). -/
def State.riseThrough : List PermitLine → State → State
  | [], s => (s.modPermit fun c => { c with state := .granted, timer := none }).raise .permitChange
  | l :: ls, s =>
    let d := s.permit.delaysInForce.rise.get l
    if d = 0 then State.riseThrough ls (s.modPermit fun c => { c with lines := c.lines.set l .active })
    else s.modPermit fun c => { c with timer := some ⟨l, d⟩ }

/-- Entry into RISING from WITHHELD (R164). -/
def State.startRise (s : State) : State :=
  State.riseThrough [.pl0, .pl1, .pl2] (s.modPermit fun c => { c with state := .rising })

/-- In FALLING, the lines of `ls` still to fall, highest first; after PL0 the permit enters WITHHELD, PERMIT_CHANGE is raised,
and R164 is applied there and then (R161, R167). -/
def State.fallThrough : List PermitLine → State → State
  | [], s =>
    let t := (s.modPermit fun c => { c with state := .withheld, timer := none }).raise .permitChange
    if t.mayRise then t.startRise else t
  | l :: ls, s =>
    let d := s.permit.delaysInForce.fall.get l
    if d = 0 then State.fallThrough ls (s.modPermit fun c => { c with lines := c.lines.set l .inactive })
    else s.modPermit fun c => { c with timer := some ⟨l, d⟩ }

/-- The active lines, highest first (R160). -/
def PermitController.activeLines (c : PermitController) : List PermitLine :=
  [.pl2, .pl1, .pl0].filter fun l => c.lines.get l == .active

/-- Entry into FALLING (R167, R168). -/
def State.startFall (s : State) : State :=
  State.fallThrough s.permit.activeLines (s.modPermit fun c => { c with state := .falling, timer := none })

/-- The state rules, applied with eligibility and the request as they stand after an event (R164, R166 to R168, R172). -/
def State.judgePermit (s : State) : State :=
  match s.permit.state with
  | .withheld => if s.mayRise then s.startRise else s
  | .rising =>
    if s.mayRise then s
    else if s.permit.activeLines.isEmpty then s.modPermit fun c => { c with state := .withheld, timer := none }
    else s.startFall
  | .granted => if s.mayRise then s else s.startFall
  | .falling => s
  | .tripped => s

/-- The drive a line takes on a hard trip (R9, R170). -/
def tripDrive : TripAction → Drive
  | .inactive => .inactive
  | .float => .released

/-- The trip actions in force; with no fuse image held the lines are released (R9). -/
def State.tripDrives (s : State) : PerLine Drive :=
  match s.fuseImage with
  | some f => f.tripAction.map tripDrive
  | none => ⟨.released, .released, .released⟩

/-- A failure handed to the permit controller: with the latch clear the permit trips; with it set nothing changes
(R170, R171). -/
def State.trip (s : State) (cause : TripCause) : State :=
  if s.permit.cause.isSome then s
  else
    (s.modPermit fun c =>
      { c with state := .tripped, lines := s.tripDrives, timer := none, cause := some cause }).raise .permitChange

/-- Sets Port B's permit request and applies the state rules (R163). -/
def State.setRequest (s : State) (x : Bool) : State := ({ s with permitRequest := x } : State).judgePermit

/-- The level driven on a permit line: none while it is released (R9, R160). -/
def State.lineLevel (s : State) (l : PermitLine) : Option Level :=
  match s.fuseImage, s.permit.lines.get l with
  | some f, .active => some (f.lineLevel.get l)
  | some f, .inactive => some (match f.lineLevel.get l with | .high => .low | .low => .high)
  | _, _ => none

/-! ## Entry to SWITCHING and to STARTING (02 and each chapter's restart table) -/

/-- Marks a unit discarded (R41, R72). -/
def HashUnit.discard (u : HashUnit) : HashUnit := { u with discarded := true }

/-- The operation in progress with its result to be discarded: a unit read runs to its end (R41, R108). -/
def FlashOp.discard : FlashOp → FlashOp
  | .unitRead u a => .unitRead u.discard a
  | op => op

/-- Entry to SWITCHING (R40, R41): the fills and reads in flight are discarded and release their holds (DEDUCED: at the entry,
log entry 12). -/
def State.enterSwitching (s : State) : State :=
  let t := (s.cutFrames.emptyQueue .a).emptyQueue .b
  { t with
    manifest := { t.manifest with state := .switching, summary := none, errorRecovery := .notTried }
    portA := t.portA.assert .held
    portB := t.portB.assert .held
    permitRequest := false
    arbiter := { t.arbiter with readAhead := [] }
    rescan := { t.rescan with running := false }
    engine := ⟨t.engine.hashing.map HashUnit.discard, t.engine.waiting.map HashUnit.discard⟩
    flash := { t.flash with op := t.flash.op.discard }
    slots := t.slots.map fun x => { x with hold := 0 } }

/-- The auto-recovery check (R39). -/
def State.autoRecoveryCheck (s : State) : State :=
  match s.fuseImage with
  | some f => if s.manifest.state == .serving && f.autoRecovery && f.hasRecovery then s.enterSwitching else s
  | none => s

/-- The failure record an image takes from a cause (R45). -/
def TripCause.record (c : TripCause) : FailureRecord :=
  match c.kind with
  | .block => .block c.index
  | _ => .segment c.index

/-- The image of a cause fails. At its change to FAILED the failure record is filled, IMAGE_FAILED is raised, the permit
controller is handed the failure, and the auto-recovery check is made; `mid` is what ends the requests and list entries that
needed the segment or block, between the two (R45, R69, R76, R78, R185). An image already FAILED only sees `mid`. -/
def State.failImage (s : State) (cause : TripCause) (mid : State → State) : State :=
  match s.images[cause.image]? with
  | none => mid s
  | some im =>
    if im.state == .failed then mid s
    else
      let t := mid (s.modImage cause.image fun x => { x with state := .failed, failure := some cause.record })
      ((t.raise .imageFailed).trip cause).autoRecoveryCheck

/-- A segment's failure reaches the queues and the read-ahead list (R77). -/
def State.endSegment (s : State) (i g : Nat) : State :=
  (s.endReads (fun e => e.needs i (· == g)) .failed).dropReadAhead fun r => r.image == i && r.segment == g

/-- A block's failure reaches the queues and the read-ahead list (R70). -/
def State.endBlock (s : State) (i b : Nat) : State :=
  (s.endReads (fun e => e.needs i (fun g => blockOf g == b)) .failed).dropReadAhead
    fun r => r.image == i && blockOf r.segment == b

/-- A segment changes to FAILED; the image's verified count falls if it was VERIFIED (R61, R76, R185). -/
def State.failSegment (s : State) (i g : Nat) : State :=
  let t := s.setSegState i g .failed
  if s.segState i g == .verified then t.modImage i fun x => { x with verified := x.verified - 1 } else t

/-- A segment changes to VERIFIED if it was UNVERIFIED; the count rises, and a PENDING image whose count reaches N becomes
COMPLETE, with one occurrence of IMAGE_COMPLETE (R61, R74, R75). -/
def State.verifySegment (s : State) (i g : Nat) : State :=
  if s.segState i g == .unverified then
    let t := (s.setSegState i g .verified).modImage i fun x => { x with verified := x.verified + 1 }
    match t.images[i]? with
    | none => t
    | some im =>
      if im.state == .pending && im.segments ≤ im.verified then
        (((t.modImage i fun x => { x with state := .complete }).occur .imageComplete).judgeReleases).judgePermit
      else t
  else s

/-- Every table, slot, line, list and cursor emptied or set to its start: the part of an entry to STARTING and of the teardown
of SWITCHING that they share (R17, R41, R64, R100, R109, R188). -/
def State.emptyTables (s : State) : State :=
  { s with
    images := []
    store := []
    segMap := []
    slots := s.slots.map Slot.freed
    slotLru := []
    lines := s.lines.map Line.freed
    lineLru := []
    arbiter := ⟨.a, [], 0, 0⟩
    rescan := { s.rescan with
      running := false, debt := 0, cursorImage := 0, cursorSegment := 0, buffer := .empty, tag := none, passCount := 0 } }

/-- A port at entry to STARTING: HELD, its queue emptied and its sticky flags clear (R124, R147). -/
def PortUnit.start (u : PortUnit) : PortUnit :=
  { u.assert .held with queue := [], overrun := false, dropped := false, badFrame := false }

/-- The flash controller at entry to STARTING: the flash-ready wait, once any reset sequence under way has ended
(R102, R108). -/
def FlashController.start (c : FlashController) : FlashController :=
  match c.op with
  | .resetting _ => { c with op := .resetting .readyWait }
  | _ => ⟨.readyWait, [FlashFrame.readStatus]⟩

/-- The permit controller at entry to STARTING by a service restart: WITHHELD, the lines inactive at the held fuse levels, or
released where no fuse image is held, the trip cleared (R9, R174). -/
def PermitController.restart (c : PermitController) (imageHeld : Bool) : PermitController :=
  let d : Drive := if imageHeld then .inactive else .released
  { c with state := .withheld, lines := ⟨d, d, d⟩, timer := none, cause := none }

/-- A service restart takes effect: entry to STARTING (R17, R201 and each chapter's row Service restart). -/
def State.serviceRestart (s : State) : State :=
  let t := s.cutFrames.emptyTables
  { t with
    manifest := { ManifestUnit.cleared with startStep := some .flashWait }
    engine := ⟨none, none⟩
    flash := t.flash.start
    portA := t.portA.start
    portB := t.portB.start
    permitRequest := false
    options := { t.options with debounce := 16 }
    permit := t.permit.restart t.fuseImage.isSome
    service := { t.service.clearAll with pendingRestart := false } }

/-- What power-on and RESET_N leave: every block stopped and every volatile value at its value of the rows Power-on and
RESET_N (R5, R17, R50, R81, R100, R108, R124, R147, R174, R188, R201). The fuse array and the pins' levels stay; a frame
running on a port is cut short (R150). After POWER_LOSS, while the supplies are not good, the same values stand: the permit lines
released and the ready lines low are there the model's choice (DESIGN CHOICE, log entry 35), and so are the master reset lines
asserted (log entry 33). -/
def State.coldStop (s : State) (straps : BitVec 2) : State :=
  let t := s.cutBurn.cutFrames.emptyTables
  { t with
    fuseImage := none
    manifest := ManifestUnit.cleared
    engine := ⟨none, none⟩
    flash := ⟨.idle, []⟩
    portA := t.portA.start
    portB := t.portB.start
    permitRequest := false
    options := OptionBlock.cleared
    permit := PermitController.cleared
    rescan := { RescanUnit.cleared with data := t.rescan.data }
    service := ServicePort.cleared straps }

/-- Entry to STARTING at power-on and at the release of RESET_N: the flash-ready wait begins (R17, R18, R102). -/
def State.coldStart (s : State) (straps : BitVec 2) : State :=
  let t := s.coldStop straps
  { t with
    manifest := { t.manifest with startStep := some .flashWait }
    flash := ⟨.readyWait, [FlashFrame.readStatus]⟩ }

end Sys2Proof.Machine
end

