-- ==== Sys2Proof/Machine/Flash.lean ====
section
/-! DEFINITION. Machine/Flash.lean: the fetch arbiter and the flash controller: the meanings of FLASH_GRANT, FLASH_READ_DONE,
STATUS_READ_DONE, the limits and polls, and RESCAN_TIMER_EXPIRY (06_flash_scheduling.md; R65, R66, R88 to R90, R178 to R183). -/

namespace Sys2Proof.Machine

/-! ## Frames to the flash device (R103; 12_formats.md, Flash operations) -/

def FlashFrame.readData (address : Nat) : FlashFrame := ⟨0x6C, be32 address, 8, .fio0to3, []⟩
def FlashFrame.writeEnable : FlashFrame := ⟨0x06, [], 0, .none, []⟩
def FlashFrame.programPage (address : Nat) (data : Bytes) : FlashFrame := ⟨0x12, be32 address, 0, .fio0, data⟩
def FlashFrame.eraseSector (address : Nat) : FlashFrame := ⟨0x21, be32 address, 0, .none, []⟩
def FlashFrame.resetEnable : FlashFrame := ⟨0x66, [], 0, .none, []⟩
def FlashFrame.reset : FlashFrame := ⟨0x99, [], 0, .none, []⟩

/-- The busy and error indications of a status byte (12_formats.md, Flash operations). -/
def statusBusy (x : Byte) : Bool := x.getLsbD 0
def statusError (x : Byte) : Bool := x.getLsbD 5

/-- The flash controller begins an operation with the given frames. -/
def State.beginFlash (s : State) (op : FlashOp) (sent : List FlashFrame) : State := { s with flash := ⟨op, sent⟩ }

/-- The flash controller begins a unit read of 4,096 bytes (R104). -/
def State.beginUnitRead (s : State) (owner : UnitOwner) (address : Nat) : State :=
  s.beginFlash (.unitRead ⟨owner, false⟩ address) [FlashFrame.readData address]

/-! ## Candidates (R109 to R120) -/

/-- What a candidate for a segment may be granted as (R65, R112, R182). -/
inductive Standing where
  /-- The segment's block is VALID in this slot. -/
  | resident (slot : Fin 8)
  /-- The block is in no slot, its store entry GOOD, and this slot can be taken for it. -/
  | fetch (slot : Fin 8)
  /-- Nothing can be granted for it now. -/
  | blocked
  deriving DecidableEq, Repr

/-- Where the digest block of segment `g` of image `i` stands (R65, R66, R110, R112): nothing is grantable while the digest
engine's wait place is full. -/
def State.standing (s : State) (i g : Nat) : Standing :=
  let t : BlockTag := ⟨i, blockOf g⟩
  if s.engine.waiting.isSome then .blocked
  else
    match s.findSlot t (fun x => x == .valid) with
    | some n => .resident n
    | none =>
      if (s.findSlot t (fun x => x == .filling || x == .hashing)).isSome || s.blockFailed i t.block then .blocked
      else
        match s.chooseSlot with
        | some n => .fetch n
        | none => .blocked

/-- A grant of the fetch arbiter. -/
inductive Grant where
  | walk (r : WalkRead)
  | fill (cls : FillClass) (tag : SegTag) (line : Fin 64) (slot : Fin 8) (port : Port) (entry : Option Nat)
  | block (tag : BlockTag) (slot : Fin 8) (demand : Option Port)
  | rescan (tag : SegTag) (slot : Fin 8) (wraps : Bool)
  | write (entry : Nat) (address : Nat) (data : Bytes)
  | erase (entry : Nat) (address : Nat)
  deriving DecidableEq, Repr

/-- The grant of a segment candidate of the demand, read-ahead or sweep class, as a fill or as its block's fill (R110, R112). -/
def State.grantSegment (s : State) (cls : FillClass) (i g : Nat) (p : Port) (entry : Option Nat) : Option Grant :=
  match s.standing i g with
  | .blocked => none
  | .fetch n => some (.block ⟨i, blockOf g⟩ n (if cls = .demand then some p else none))
  | .resident n =>
    match s.chooseLine with
    | some k => some (.fill cls ⟨i, g⟩ k n p entry)
    | none => none

/-- The first work of a queue entry that needs the flash and is grantable (R113). -/
def State.grantEntry (s : State) (p : Port) (e : Entry) : Option Grant :=
  if e.status.isSome then none
  else
    match e.body with
    | .read r =>
      match r.image with
      | some i =>
        (r.holds.filter fun h => h.hold == .outstanding).findSome? fun h =>
          s.grantSegment .demand i h.segment p (some e.id)
      | none => none
    | .write a d => if e.granted then none else some (.write e.id a d)
    | .erase a => if e.granted then none else some (.erase e.id a)
    | _ => none

/-- A port's demand candidate: the oldest grantable work of its queue (R113). -/
def State.demandOf (s : State) (p : Port) : Option Grant := (s.port p).queue.findSome? fun e => s.grantEntry p e

/-- The demand class: the port the turn names first, then the other (R114). -/
def State.demandGrant (s : State) : Option Grant := (s.demandOf s.arbiter.turn).or (s.demandOf (otherPort s.arbiter.turn))

/-- The read-ahead class: the oldest list entry whose work is grantable (R117). -/
def State.readAheadGrant (s : State) : Option Grant :=
  s.arbiter.readAhead.findSome? fun r => s.grantSegment .readAhead r.image r.segment r.origin none

/-- An open segment of the sweep (R118). -/
def State.segmentOpen (s : State) (i g : Nat) : Bool :=
  s.segState i g == .unverified && (s.findLine ⟨i, g⟩ LineState.present).isNone && !s.blockFailed i (blockOf g)

/-- An image the sweep may take: included, PENDING, with an open segment (R118). -/
def State.sweepable (s : State) (i : Nat) : Bool :=
  match s.images[i]? with
  | some im => im.included && im.state == .pending && (List.range im.segments).any fun g => s.segmentOpen i g
  | none => false

/-- The sweep's candidate: in the lowest image it may take, the first open segment at or after the cursor, the cursor being
set to segment 0 when it named another image (R118). -/
def State.sweepCandidate (s : State) : Option SegTag :=
  match (List.range s.images.length).find? fun i => s.sweepable i with
  | none => none
  | some i =>
    let from' := if s.arbiter.sweepImage = i then s.arbiter.sweepSegment else 0
    match s.images[i]? with
    | none => none
    | some im =>
      ((List.range im.segments).find? fun g => decide (from' ≤ g) && s.segmentOpen i g).map fun g => ⟨i, g⟩

/-- Moves the sweep cursor. -/
def State.setSweep (s : State) (i g : Nat) : State :=
  { s with arbiter := { s.arbiter with sweepImage := i, sweepSegment := g } }

/-- A segment of the rescan set (R180). -/
def State.inRescanSet (s : State) (i g : Nat) : Bool :=
  (match s.images[i]? with | some im => im.included | none => false) && s.segState i g == .verified &&
    !s.blockFailed i (blockOf g)

/-- Every segment of the image table, in the order of the rescan set. -/
def State.allSegments (s : State) : List SegTag :=
  s.images.zipIdx.flatMap fun x => (List.range x.1.segments).map fun g => ⟨x.2, g⟩

/-- A segment at or after the rescan cursor. -/
def RescanUnit.reached (u : RescanUnit) (t : SegTag) : Bool :=
  u.cursorImage < t.image || (u.cursorImage == t.image && u.cursorSegment ≤ t.segment)

/-- The rescan unit's candidate, and whether it wraps (R180). -/
def State.rescanCandidate (s : State) : Option (SegTag × Bool) :=
  let set := s.allSegments.filter fun t => s.inRescanSet t.image t.segment
  match set.find? fun t => s.rescan.reached t with
  | some t => some (t, false)
  | none => set.head?.map fun t => (t, true)

/-- The rescan classes (R110, R112, R120, R182): the read, granted only while the buffer holds none in flight, or its block's fill.
At a debt of 8 with a read in flight nothing is granted, the fill neither (R186; DEDUCED, log entry 13). -/
def State.rescanGrant (s : State) : Option Grant :=
  match s.rescanCandidate with
  | none => none
  | some (t, wraps) =>
    match s.standing t.image t.segment with
    | .resident n => if s.rescan.buffer = .empty then some (.rescan t n wraps) else none
    | .fetch n =>
      if s.rescan.buffer = .empty || s.rescan.debt < 8 then some (.block ⟨t.image, blockOf t.segment⟩ n none) else none
    | .blocked => none

/-! ## Grants -/

/-- The queued READ entries of a port that have a segment outstanding (R89). -/
def State.outstandingOn (s : State) (p : Port) (t : SegTag) : List Entry :=
  (s.port p).queue.filter fun e =>
    e.readsImage t.image && e.holds.any fun h => h.segment == t.segment && h.hold == .outstanding

/-- The pieces of an entry in a segment. -/
def Entry.piecesIn (e : Entry) (g : Nat) : List Piece :=
  match e.body with
  | .read r => r.pieces.filter fun x => x.segment == g
  | _ => []

/-- An entry as a waiter. -/
def Entry.waiter (e : Entry) (p : Port) (g : Nat) : Waiter := ⟨p, e.id, e.piecesIn g⟩

/-- The waiter list a fill begins with (R89): for a demand grant the granted request first; then the other requests of the
port `p`, then those of the other port, each in queue order. -/
def State.firstWaiters (s : State) (t : SegTag) (p : Port) (entry : Option Nat) : List Waiter :=
  let own := s.outstandingOn p t
  ((own.filter fun e => some e.id == entry) ++ own.filter fun e => some e.id != entry).map (fun e => e.waiter p t.segment) ++
    (s.outstandingOn (otherPort p) t).map fun e => e.waiter (otherPort p) t.segment

/-- The entry with its hold on a segment changed. -/
def Entry.setHold (e : Entry) (g : Nat) (h : Hold) : Entry :=
  e.withHolds (e.holds.map fun x => if x.segment = g then { x with hold := h } else x)

/-- Every request that has a segment outstanding now waits on line `n` (R89). -/
def State.joinOutstanding (s : State) (t : SegTag) (n : Fin 64) : State :=
  let f := fun e : Entry =>
    if e.readsImage t.image && e.holds.any (fun h => h.segment == t.segment && h.hold == .outstanding) then
      e.setHold t.segment (.waiting n)
    else e
  (s.modQueue .a (List.map f)).modQueue .b (List.map f)

/-- The flash address of a segment (R104). -/
def State.segmentAddress (s : State) (t : SegTag) : Nat :=
  (match s.images[t.image]? with | some im => im.flashBase | none => 0) + t.segment * Config.segmentBytes

/-- The flash address of a digest block (R66, R104). -/
def State.blockAddress (s : State) (t : BlockTag) : Nat :=
  (match s.images[t.image]? with | some im => im.digestBase | none => 0) + t.block * Config.segmentBytes

/-- Passes the port turn after a demand grant (R114). -/
def State.passTurn (s : State) (p : Port) : State := { s with arbiter := { s.arbiter with turn := otherPort p } }

/-- The turn and cursor after a fill of a class is granted (R114, R118). -/
def State.afterFill (s : State) (cls : FillClass) (t : SegTag) (p : Port) : State :=
  match cls with
  | .demand => s.passTurn p
  | .readAhead => s
  | .sweep => s.setSweep t.image (t.segment + 1)

/-- The grant of a segment fill (R71, R73, R88, R89, R117): the line becomes FILLING with its waiters, the hold is taken on
the slot, and every list entry naming the segment is removed. -/
def State.grantFill (s : State) (cls : FillClass) (t : SegTag) (n : Fin 64) (k : Fin 8) (p : Port) (entry : Option Nat) :
    State :=
  let ws := s.firstWaiters t p entry
  let u := (s.modLine n fun x =>
    { x with state := .filling, tag := some t, pins := 0, waiters := ws, fillClass := some cls, streamMark := false }).leaveLru n
  let v := ((u.joinOutstanding t n).takeHold k).dropReadAhead fun r => r.image == t.image && r.segment == t.segment
  (v.afterFill cls t p).beginUnitRead (.line n t k) (s.segmentAddress t)

/-- The grant of a digest block fill (R66, R67, R114). -/
def State.grantBlock (s : State) (t : BlockTag) (k : Fin 8) (demand : Option Port) : State :=
  let u := s.modSlot k fun x => { x with state := .filling, tag := some t, hold := 0 }
  let v : State := { u with slotLru := u.slotLru.erase k }
  (match demand with | some p => v.passTurn p | none => v).beginUnitRead (.slot k t) (s.blockAddress t)

/-- The grant of a rescan read (R181, R183). -/
def State.grantRescan (s : State) (t : SegTag) (k : Fin 8) (wraps : Bool) : State :=
  let u : State := { s with
    rescan := { s.rescan with
      debt := s.rescan.debt - 1
      passCount := if wraps then s.rescan.passCount + 1 else s.rescan.passCount
      cursorImage := t.image
      cursorSegment := t.segment + 1
      buffer := .filling
      tag := some t } }
  ((if wraps then u.occur .rescanPass else u).takeHold k).beginUnitRead (.rescan t k) (s.segmentAddress t)

/-- A WRITE or ERASE entry once granted; a WRITE's data is held no longer than its program page operation is sent (R105, R113;
DEDUCED, log entry 26). -/
def Entry.nowGranted (e : Entry) : Entry :=
  match e.body with
  | .write a _ => { e with granted := true, body := .write a [] }
  | _ => { e with granted := true }

/-- Marks a WRITE or ERASE entry granted (R113). -/
def State.markGranted (s : State) (id : Nat) : State :=
  s.modQueue .a fun es => es.map fun e => if e.id = id then e.nowGranted else e

/-- The address of the segment that holds a flash address (R106). -/
def segmentStart (a : Nat) : Nat := a - a % Config.segmentBytes

/-- Carries out a grant. A program or erase is followed at once by the first of its status reads (R105, R106). -/
def State.applyGrant (s : State) : Grant → State
  | .walk r => s.beginFlash (.walkRead r) [FlashFrame.readData r.address]
  | .fill cls t n k p entry => s.grantFill cls t n k p entry
  | .block t k demand => s.grantBlock t k demand
  | .rescan t k wraps => s.grantRescan t k wraps
  | .write id a d =>
    ((s.markGranted id).passTurn .a).beginFlash (.programming a id)
      [FlashFrame.writeEnable, FlashFrame.programPage a d, FlashFrame.readStatus]
  | .erase id a =>
    ((s.markGranted id).passTurn .a).beginFlash (.erasing (segmentStart a) id)
      [FlashFrame.writeEnable, FlashFrame.eraseSector (segmentStart a), FlashFrame.readStatus]

/-- The selection of the sweep and rescan classes, reached when no class above grants: the sweep moves its cursor to its
candidate, which is granted if it can be; else the ordinary rescan class at a debt of at least 1 (R109, R118, R120; DEDUCED: the
cursor moves whether or not the candidate is granted, log entry 11). -/
def State.grantBackground (s : State) : State :=
  let ordinary := fun t : State =>
    if 1 ≤ t.rescan.debt then match t.rescanGrant with | some g => t.applyGrant g | none => t else t
  match s.sweepCandidate with
  | none => ordinary s
  | some c =>
    let t := s.setSweep c.image c.segment
    match t.grantSegment .sweep c.image c.segment .a none with
    | some g => t.applyGrant g
    | none => ordinary t

/-- The forced rescan class (R120). -/
def State.forcedGrant (s : State) : Option Grant := if s.rescan.debt = 8 then s.rescanGrant else none

/-- A selection while the part serves, in class order (R109). -/
def State.selectServing (s : State) : State :=
  match (s.forcedGrant.or s.demandGrant).or s.readAheadGrant with
  | some g => s.applyGrant g
  | none => s.grantBackground

/-- FLASH_GRANT (R109): with the flash controller IDLE, the first grantable candidate in class order is granted. In STARTING
and WALKING only the walk class uses the flash; in SWITCHING and LOCKED nothing is granted. DESIGN CHOICE: a selection is a step
of its own (log entry 10). -/
def execFlashGrant (s : State) : Host.Outcome State Fault Refusal :=
  .next (if !(s.live && s.flash.op == .idle) then s
    else
      match s.manifest.state with
      | .starting | .walking =>
        match s.manifest.walkRead with
        | some r => s.applyGrant (.walk r)
        | none => s
      | .serving | .recoveryServing => s.selectServing
      | .switching | .locked => s)

/-! ## The flash controller's events -/

/-- Hands a unit to the digest engine: it is hashed at once, or waits (R72, R111). -/
def DigestEngine.accept (e : DigestEngine) (u : HashUnit) : DigestEngine :=
  if e.hashing.isNone then { e with hashing := some u } else { e with waiting := some u }

/-- The owner's buffer takes the bytes read and becomes HASHING (R67, R73, R183). -/
def State.fillOwner (s : State) (owner : UnitOwner) (data : Bytes) : State :=
  match owner with
  | .line n _ _ => s.modLine n fun x => { x with state := .hashing, data := data }
  | .slot n _ => s.modSlot n fun x => { x with state := .hashing, data := data }
  | .rescan _ _ => { s with rescan := { s.rescan with buffer := .hashing, data := data } }

/-- FLASH_READ_DONE (R104, R111): the controller returns to IDLE; the line, slot or buffer becomes HASHING and its unit goes to
the digest engine, unless the read was discarded at entry to SWITCHING (R41). -/
def execFlashReadDone (data : Bytes) (s : State) : Host.Outcome State Fault Refusal :=
  .next (match s.flash.op with
    | .unitRead u _ =>
      if !(s.live && data.length == Config.segmentBytes) then s
      else
        let t : State := { s with flash := { s.flash with op := .idle } }
        if u.discarded then t
        else
          let v := t.fillOwner u.owner data
          { v with engine := v.engine.accept u }
    | _ => s)

/-- Decides a WRITE or ERASE entry of Port A, if it is still queued (R105, R108). -/
def State.decideEntry (s : State) (id : Nat) (x : RespStatus) : State :=
  s.modQueue .a fun es => es.map fun e => if e.id = id then { e with status := some x } else e

/-- The queue entry of the program or erase in progress. -/
def FlashOp.writing : FlashOp → Option Nat
  | .programming _ id => some id
  | .erasing _ id => some id
  | _ => none

/-- STATUS_READ_DONE (R105, R106): a not-busy report ends the operation with DONE or WRITE_FAULT; otherwise the status is
read again. -/
def execStatusReadDone (status : Byte) (s : State) : Host.Outcome State Fault Refusal :=
  .next (match s.flash.op.writing with
    | some id =>
      s.when s.live
        (if statusBusy status then { s with flash := { s.flash with sent := [FlashFrame.readStatus] } }
        else
          ({ s with flash := { s.flash with op := .idle } } : State).decideEntry id
            (if statusError status then .writeFault else .done))
    | none => s)

/-- A limit expires: the operation's result is TIMEOUT and the flash reset sequence is sent (R107; DEDUCED: the result is placed
at the expiry, log entry 15). -/
def State.limitExpired (s : State) (id : Nat) : State :=
  (s.beginFlash (.resetting .idle) [FlashFrame.resetEnable, FlashFrame.reset]).decideEntry id .timeout

/-- PROGRAM_LIMIT_EXPIRY (R107). -/
def execProgramLimitExpiry (s : State) : Host.Outcome State Fault Refusal :=
  .next (match s.flash.op with
    | .programming _ id => s.when s.live (s.limitExpired id)
    | _ => s)

/-- ERASE_LIMIT_EXPIRY (R107). -/
def execEraseLimitExpiry (s : State) : Host.Outcome State Fault Refusal :=
  .next (match s.flash.op with
    | .erasing _ id => s.when s.live (s.limitExpired id)
    | _ => s)

/-- The flash-ready wait has ended: the flash controller is IDLE and the fuse load follows (R18). -/
def State.beginFuseLoad (s : State) : State :=
  { s with flash := { s.flash with op := .idle }, manifest := { s.manifest with startStep := some .fuseLoad } }

/-- FLASH_READY_POLL_DONE (R18): a ready report ends the wait and starts the fuse load; otherwise the device is polled
again. -/
def execFlashReadyPollDone (status : Byte) (s : State) : Host.Outcome State Fault Refusal :=
  .next (match s.flash.op with
    | .readyWait =>
      s.when s.live
        (if statusBusy status then { s with flash := { s.flash with sent := [FlashFrame.readStatus] } } else s.beginFuseLoad)
    | _ => s)

/-- FLASH_READY_LIMIT_EXPIRY (R18, R107): the flash reset sequence is sent before the fuse load. -/
def execFlashReadyLimitExpiry (s : State) : Host.Outcome State Fault Refusal :=
  .next (match s.flash.op with
    | .readyWait => s.when s.live (s.beginFlash (.resetting .fuseLoad) [FlashFrame.resetEnable, FlashFrame.reset])
    | _ => s)

/-- FLASH_RESET_SETTLE_EXPIRY (R103, R107, R108): the sequence ends and the controller returns to IDLE; in STARTING the fuse
load follows, or the flash-ready wait that a service restart held back. -/
def execFlashResetSettleExpiry (s : State) : Host.Outcome State Fault Refusal :=
  .next (match s.flash.op with
    | .resetting .idle => s.when s.live { s with flash := { s.flash with op := .idle } }
    | .resetting .fuseLoad => s.when s.live s.beginFuseLoad
    | .resetting .readyWait => s.when s.live (s.beginFlash .readyWait [FlashFrame.readStatus])
    | _ => s)

/-- RESCAN_TIMER_EXPIRY (R178, R179): the debt rises by 1 unless it stands at 8. -/
def execRescanTimerExpiry (s : State) : Host.Outcome State Fault Refusal :=
  .next (s.when (s.live && s.rescan.running)
    { s with rescan := { s.rescan with debt := min 8 (s.rescan.debt + 1) } })

end Sys2Proof.Machine
end

