-- ==== Sys2Proof/Machine/Options.lean ====
section
/-! DEFINITION. Machine/Options.lean: the option inputs and the re-evaluation of inclusion: the meaning of OPTION_SAMPLE
(03_images_and_option_inputs.md). -/

namespace Sys2Proof.Machine

/-- An input's counter after a sample, and whether its bit takes the reading (R48). -/
def debounceInput (d : Nat) (word levels : Byte) (k : Nat) (counter : Nat) : Nat × Bool :=
  if levels.getLsbD k == word.getLsbD k then (0, false)
  else if d ≤ counter + 1 then (0, true)
  else (counter + 1, false)

/-- The bits of the option word that a sample changes (R48). -/
def OptionBlock.changes (o : OptionBlock) (levels : Byte) : Byte :=
  (List.finRange 8).foldl (fun acc k =>
    if (debounceInput o.debounce o.word levels k.val o.counters[k]).2 then acc ||| (1#8 <<< k.val) else acc) 0

/-- The option block after a sample: on the first one the word takes the readings with no debounce (R50); on every other one
each counter is updated and the bits that change do so together (R47, R48). -/
def OptionBlock.sample (o : OptionBlock) (levels : Byte) : OptionBlock :=
  if !o.sampled then { o with word := levels, counters := Vector.replicate 8 0, sampled := true }
  else
    { o with
      word := o.word ^^^ o.changes levels
      counters := Vector.ofFn fun k : Fin 8 => (debounceInput o.debounce o.word levels k.val o.counters[k]).1 }

/-- The bits of the word that a sample changes as changes of the word: none at the first sample (R50). -/
def OptionBlock.wordChanges (o : OptionBlock) (levels : Byte) : Byte := if o.sampled then o.changes levels else 0

/-- An image newly excluded by a word. -/
def Image.leaves (im : Image) (word : Byte) : Bool := im.included && !conditionsHold word im.conditions

/-- Image `i` is newly excluded by a word. -/
def State.imageLeaves (s : State) (i : Nat) (word : Byte) : Bool :=
  match s.images[i]? with
  | some im => im.leaves word
  | none => false

/-- An entry reads an image newly excluded by a word (R54). -/
def State.readsLeaving (s : State) (word : Byte) (e : Entry) : Bool :=
  match e.body with
  | .read r => (match r.image with | some i => s.imageLeaves i word | none => false)
  | _ => false

/-- The re-evaluation of inclusion (R46, R52 to R56): every flag is set afresh, newly excluded images end their undecided READs
DENIED and lose their read-ahead entries, and the release and permit controllers judge the flags as they now stand. -/
def State.reevaluate (s : State) (word : Byte) : State :=
  let t := (s.endReads (s.readsLeaving word) .denied).dropReadAhead fun r => s.imageLeaves r.image word
  (({ t with images := t.images.map fun im => { im with included := conditionsHold word im.conditions } } :
    State).judgeReleases).judgePermit

/-- OPTION_SAMPLE (R47 to R51): the counters are updated and bits of the word may change; a change raises OPTION_CHANGE if a
changed bit is unmasked, and re-evaluates inclusion in SERVING and RECOVERY_SERVING. -/
def execOptionSample (levels : Byte) (s : State) : Host.Outcome State Fault Refusal :=
  .next (
    if !s.live then s
    else
      let changed := s.options.wordChanges levels
      let t : State := { s with options := s.options.sample levels }
      let u := if changed &&& ~~~s.options.eventMask != 0 then t.raise .optionChange else t
      if changed != 0 && s.isServing then u.reevaluate u.options.word else u)

end Sys2Proof.Machine
end

