-- ==== Sys2Proof/Machine/Permit.lean ====
section
/-! DEFINITION. Machine/Permit.lean: the timers of the release and permit controllers: the meanings of HOLD_TIMER_EXPIRY,
RISE_DELAY_EXPIRY and FALL_DELAY_EXPIRY (08_reset_release_and_recovery_serving.md, 09_the_print_permit.md). -/

namespace Sys2Proof.Machine

/-- HOLD_TIMER_EXPIRY (R147, R149): the hold is served and the port is judged. -/
def execHoldTimerExpiry (p : Port) (s : State) : Host.Outcome State Fault Refusal :=
  .next (s.when (s.live && (s.port p).state != .released && !(s.port p).holdServed)
    ((s.modPort p fun u => { u with holdServed := true }).judgeRelease p))

/-- The lines that rise after a line. -/
def PermitLine.above : PermitLine → List PermitLine
  | .pl0 => [.pl1, .pl2]
  | .pl1 => [.pl2]
  | .pl2 => []

/-- The lines that fall after a line. -/
def PermitLine.below : PermitLine → List PermitLine
  | .pl0 => []
  | .pl1 => [.pl0]
  | .pl2 => [.pl1, .pl0]

/-- RISE_DELAY_EXPIRY (R165): the pending line becomes active and the next one's delay starts; with PL2 the permit enters
GRANTED. -/
def execRiseDelayExpiry (s : State) : Host.Outcome State Fault Refusal :=
  .next (match s.permit.state, s.permit.timer with
    | .rising, some x =>
      s.when s.live (State.riseThrough x.line.above
        (s.modPermit fun c => { c with lines := c.lines.set x.line .active, timer := none }))
    | _, _ => s)

/-- FALL_DELAY_EXPIRY (R167): the pending line becomes inactive and the next lower one's delay starts; with PL0 the permit
enters WITHHELD and may rise again. -/
def execFallDelayExpiry (s : State) : Host.Outcome State Fault Refusal :=
  .next (match s.permit.state, s.permit.timer with
    | .falling, some x =>
      s.when s.live (State.fallThrough x.line.below
        (s.modPermit fun c => { c with lines := c.lines.set x.line .inactive, timer := none }))
    | _, _ => s)

end Sys2Proof.Machine
end

