-- ==== Sys2Proof/Machine/Operands.lean ====
section
/-! DEFINITION. Machine/Operands.lean: the operand forms of the port commands: the bytes of each frame, and the command
that the bits received between a fall and a rise of CS_N spell (R125; 12_formats.md, Port frames and responses). -/

namespace Sys2Proof.Machine

/-- A frame with a complete header. -/
inductive PortFrame where
  | read (tag : Byte) (address : BitVec 32) (length : BitVec 16) (flags : Byte)
  | translate (tag : Byte) (address : BitVec 32)
  | write (tag : Byte) (address : BitVec 32) (data : Bytes)
  | erase (tag : Byte) (address : BitVec 32)
  | collect
  | status
  | reboot
  | permitOn
  | permitOff
  deriving DecidableEq, Repr

/-- The bytes of a frame: command byte, fixed fields, and a WRITE's data (12_formats.md, Port frames and responses). -/
def PortFrame.bytes : PortFrame → Bytes
  | .read tag address length flags => [0x01, tag] ++ be32 address.toNat ++ be16 length.toNat ++ [flags]
  | .translate tag address => [0x02, tag] ++ be32 address.toNat
  | .write tag address data => [0x03, tag] ++ be32 address.toNat ++ data
  | .erase tag address => [0x04, tag] ++ be32 address.toNat
  | .collect => [0x10]
  | .status => [0x11]
  | .reboot => [0x12]
  | .permitOn => [0x13]
  | .permitOff => [0x14]

/-- The four address bytes of a frame's header, after command and tag. -/
def frameAddress (b : Bytes) : BitVec 32 := BitVec.ofNat 32 (be32At b 2)

/-- The whole bytes among the bits that a port sampled, in the order they were clocked: each byte passes its most significant bit
first, and a partial byte at the end is discarded (R125). -/
def wholeBytes : List Bool → Bytes
  | b7 :: b6 :: b5 :: b4 :: b3 :: b2 :: b1 :: b0 :: rest =>
    BitVec.ofNat 8 (128 * bit b7 + 64 * bit b6 + 32 * bit b5 + 16 * bit b4 + 8 * bit b3 + 4 * bit b2 + 2 * bit b1 + bit b0) ::
      wholeBytes rest
  | _ => []

/-- The bits of a run of bytes, as they pass on the wire (R125). -/
def bitsOf (b : Bytes) : List Bool :=
  b.flatMap fun x => [x.getLsbD 7, x.getLsbD 6, x.getLsbD 5, x.getLsbD 4, x.getLsbD 3, x.getLsbD 2, x.getLsbD 1, x.getLsbD 0]

/-- Judges the whole bytes of a frame (R125): none when the command byte is missing or unknown or the header incomplete.
Bytes after a complete header are ignored, except a WRITE's data. -/
def parseFrame (b : Bytes) : Option PortFrame :=
  match b with
  | [] => none
  | c :: _ =>
    if c = 0x01 then
      if 9 ≤ b.length then
        some (.read (b.getD 1 0) (frameAddress b) (BitVec.ofNat 16 (be16At b 6)) (b.getD 8 0))
      else none
    else if c = 0x02 then
      if 6 ≤ b.length then some (.translate (b.getD 1 0) (frameAddress b)) else none
    else if c = 0x03 then
      if 6 ≤ b.length then some (.write (b.getD 1 0) (frameAddress b) (b.drop 6)) else none
    else if c = 0x04 then
      if 6 ≤ b.length then some (.erase (b.getD 1 0) (frameAddress b)) else none
    else if c = 0x10 then some .collect
    else if c = 0x11 then some .status
    else if c = 0x12 then some .reboot
    else if c = 0x13 then some .permitOn
    else if c = 0x14 then some .permitOff
    else none

/-- The command that a frame is whose bits on port `p` were `received` (R125). -/
def frameCommand (p : Port) (received : List Bool) : Instr :=
  match parseFrame (wholeBytes received) with
  | none => .malformedFrame p received
  | some (.read tag address length flags) => .read p tag address length flags
  | some (.translate tag address) => .translate p tag address
  | some (.write tag address data) => .write p tag address data
  | some (.erase tag address) => .erase p tag address
  | some .collect => .collect p (wholeBytes received).length
  | some .status => .status p
  | some .reboot => .reboot p
  | some .permitOn => .permitOn p
  | some .permitOff => .permitOff p

/-- The STREAM mark of a READ frame: bit 0 of its flags byte; the other bits are unused (12_formats.md; R203). -/
def streamMark (flags : Byte) : Bool := flags.getLsbD 0

end Sys2Proof.Machine
end

