-- ==== Sys2Proof/Machine/Ports.lean ====
section
/-! DEFINITION. Machine/Ports.lean: the frames of the master ports, the queue, translation and responses: the meanings of
CS_N_FALL, READ, TRANSLATE, WRITE, ERASE, COLLECT, STATUS, REBOOT, PERMIT_ON, PERMIT_OFF, MALFORMED_FRAME and
COLLECT_WINDOW_EXPIRY (07_master_ports.md; R84, R98, R116, R121). -/

namespace Sys2Proof.Machine

/-! ## Frames -/

/-- The port status byte (R126; 12_formats.md, Port status byte). -/
def State.statusByte (s : State) (p : Port) : Byte :=
  let u := s.port p
  BitVec.ofNat 8 ((4 - u.queue.length) + 8 * bit u.headReady + 16 * bit u.overrun + 32 * bit u.dropped + 64 * bit u.badFrame +
    128 * bit (p == .b && s.permitRequest))

/-- The serial number of the head entry whose response is ready. -/
def PortUnit.readyHead (u : PortUnit) : Option Nat :=
  match u.queue with
  | e :: _ => if e.status.isSome then some e.id else none
  | [] => none

/-- CS_N falls: on a RELEASED port the status byte is formed and the head's ready response bound; a frame that begins on a port
that is not RELEASED is ignored (R126, R131, R150). -/
def State.openFrame (s : State) (p : Port) : State :=
  let f : SpiFrame :=
    if s.live && (s.port p).state == .released then ⟨true, s.statusByte p, (s.port p).readyHead, false, none⟩
    else ⟨false, 0, none, false, none⟩
  s.modPort p fun u => { u with frame := some f }

/-- CS_N_FALL (R126, R131, R150). While a live frame runs CS_N is low and cannot fall; an ignored frame's end need not be
commanded (log entry 6). -/
def execCsNFall (p : Port) (s : State) : Host.Outcome State Fault Refusal :=
  .next (s.when (!(s.port p).frameLive) (s.openFrame p))

/-- The head entry leaves the queue without delivery: its pins are released and DROPPED is set (R133). -/
def State.dropHead (s : State) (p : Port) : State :=
  match (s.port p).queue with
  | e :: es => ((s.detach p e false).modQueue p fun _ => es).stick p .dropped
  | [] => s

/-- A held collect-window expiry is taken at the frame's end, if the response it concerns is still at the head (R134; DEDUCED:
after the frame's own effect, log entry 14). -/
def State.takeHeldExpiry (s : State) (p : Port) (f : SpiFrame) : State :=
  if f.heldExpiry && f.bound.isSome && (s.port p).readyHead == f.bound then s.dropHead p else s

/-- What was driven of a frame that would have been sent `b` in whole: all of it on a port RELEASED throughout, nothing on one not
RELEASED at the fall, and of a frame cut short only what came before the cut (R126, R150; log entry 34). -/
def SpiFrame.driven (f : SpiFrame) (b : Bytes) : Driven :=
  if f.live then .bytes b
  else
    match f.cut with
    | some (k, _) => .untilCut k b
    | none => .nothing

/-- The end of a frame: CS_N rises on a frame that would be sent `sends` and then filler. On a frame that the port takes, `effect` is what
its command does, and then a held expiry is taken (R125, R134, R150); one that it does not take has no effect. With CS_N high the
command stands for a whole frame, its fall and its rise with nothing between (log entry 6). -/
def State.endFrame (s : State) (p : Port) (sends : SpiFrame → State → Bytes) (effect : SpiFrame → State → State) : State :=
  let t := if (s.port p).frame.isSome then s else s.openFrame p
  match (t.port p).frame with
  | none => t
  | some f =>
    let u := t.modPort p fun v => { v with frame := none, sent := f.driven (sends f t) }
    if f.live then (effect f u).takeHeldExpiry p f else u

/-- What a frame that is no COLLECT is sent before its filler: the status byte (R126, R135). -/
def sendsStatus (f : SpiFrame) (_ : State) : Bytes := [f.status]

/-- What a COLLECT frame of `clocked` bytes is sent: the status byte, the answer, then filler (R131, R132). -/
def sendsAnswer (p : Port) (clocked : Nat) (f : SpiFrame) (s : State) : Bytes :=
  withFiller clocked (f.status :: match f.cut with | some (_, b) => b | none => s.answer p f)

/-! ## Translation (R137 to R142) -/

/-- The size Z of an image's contents. -/
def Image.contents (im : Image) : Nat := im.segments * Config.segmentBytes

/-- The window whose span holds an address on a port (R138). -/
def windowAt (images : List Image) (p : Port) (x : Nat) : Option Nat :=
  images.findIdx? fun im => im.owner.sees p && im.windowBase ≤ x && x < im.windowBase + im.windowSpan

/-- The offset into the image's contents (R139). -/
def Image.offsetOf (im : Image) (x : Nat) : Nat :=
  match im.windowMode with
  | .linear => x - im.windowBase
  | .mirror => (x - im.windowBase) % im.contents

/-- The delivered length L' for a length not above 8,192 (R139). -/
def Image.deliveredLength (im : Image) (x length : Nat) : Nat :=
  match im.windowMode with
  | .linear => min length (im.contents - im.offsetOf x)
  | .mirror => min length (im.windowSpan - (x - im.windowBase))

/-- Splits `r` bytes from offset `o` into pieces; `wrap` is the offset at which a MIRROR window returns to 0 (R140). Each piece
has at least one byte, so `r` steps suffice. -/
def splitPieces (wrap : Option Nat) : Nat → Nat → Nat → List Piece
  | 0, _, _ => []
  | n + 1, o, r =>
    if r = 0 then []
    else
      let k := min r (Config.segmentBytes - o % Config.segmentBytes)
      let o' := if wrap = some (o + k) then 0 else o + k
      ⟨o / Config.segmentBytes, o % Config.segmentBytes, k⟩ :: splitPieces wrap n o' (r - k)

/-- Where a window wraps (R140). -/
def Image.wrap (im : Image) : Option Nat :=
  match im.windowMode with
  | .linear => none
  | .mirror => some im.contents

/-- The pieces of a delivered length at an address (R140). -/
def Image.pieces (im : Image) (x delivered : Nat) : List Piece :=
  splitPieces im.wrap delivered (im.offsetOf x) delivered

/-- What the translation of a READ comes to (R137 to R140). -/
inductive Translation where
  | badReq
  | denied
  | found (image delivered : Nat) (short : Bool) (pieces : List Piece)
  deriving DecidableEq, Repr

/-- The translation of a READ (R137 to R140). -/
def translateRead (images : List Image) (p : Port) (x length : Nat) : Translation :=
  if length = 0 then .badReq
  else
    match windowAt images p x with
    | none => .denied
    | some i =>
      match images[i]? with
      | none => .denied
      | some im =>
        if !im.included then .denied
        else
          let d := im.deliveredLength x (min length 8192)
          .found i d (decide (d < length)) (im.pieces x d)

/-- The residency of a segment (R98). -/
def State.residency (s : State) (t : SegTag) : Residency :=
  if (s.findLine t (fun x => x == .valid)).isSome then .valid
  else if (s.findLine t (fun x => x == .stale)).isSome then .stale
  else if (s.findLine t LineState.inFlight).isSome then .inFlight
  else .free

/-- The translation record of an address (R141, R142). -/
def State.translationRecord (s : State) (p : Port) (x : Nat) : Option TranslationRecord :=
  match windowAt s.images p x with
  | none => none
  | some i =>
    match s.images[i]? with
    | none => none
    | some im =>
      let o := im.offsetOf x
      let g := o / Config.segmentBytes
      some ⟨i, im.included, g, o % Config.segmentBytes, im.windowMode, s.segState i g, s.residency ⟨i, g⟩⟩

/-! ## Lookups and read-ahead (R80, R84, R116) -/

/-- The distinct segments of a list of pieces, in the order of their first pieces (R84). -/
def distinctSegments (ps : List Piece) : List Nat := (ps.map (·.segment)).eraseDups

/-- The request ends FAILED at this segment's lookup (R80). -/
def State.lookupFails (s : State) (i g : Nat) : Bool :=
  s.segState i g == .failed ||
    (s.blockFailed i (blockOf g) && (s.findLine ⟨i, g⟩ (fun x => x == .valid)).isNone)

/-- The entry with one more hold. -/
def Entry.addHold (e : Entry) (g : Nat) (h : Hold) : Entry := e.withHolds (e.holds ++ [⟨g, h⟩])

/-- The lookups of a READ entry of port `p`, once for each distinct segment (R80, R84). -/
def State.lookups (p : Port) (i : Nat) : List Nat → Entry → State → State × Entry
  | [], e, s => (s, e.settle)
  | g :: gs, e, s =>
    if s.lookupFails i g then (s.detach p e false, e.ended .failed)
    else
      match s.findLine ⟨i, g⟩ LineState.present with
      | none => State.lookups p i gs (e.addHold g .outstanding) s
      | some n =>
        if s.lines[n].state == .valid then State.lookups p i gs (e.addHold g (.pinned n)) (s.takePin n e.stream)
        else
          let w : Waiter := ⟨p, e.id, match e.body with | .read r => r.pieces.filter (fun x => x.segment == g) | _ => []⟩
          State.lookups p i gs (e.addHold g (.waiting n)) (s.modLine n fun x => { x with waiters := x.waiters ++ [w] })

/-- One segment is appended to the read-ahead list, if each condition of R116 holds. -/
def State.listAhead (s : State) (p : Port) (i g : Nat) : State :=
  if (s.findLine ⟨i, g⟩ LineState.present).isNone && s.segState i g != .failed && !s.blockFailed i (blockOf g) &&
      (s.arbiter.readAhead.all fun r => !(r.image == i && r.segment == g)) && s.arbiter.readAhead.length < 8 then
    { s with arbiter := { s.arbiter with readAhead := s.arbiter.readAhead ++ [⟨i, g, p⟩] } }
  else s

/-- The segments a READ lists ahead: s + 1 to min(s + D, N - 1) (R116). -/
def Image.aheadOf (im : Image) (g : Nat) : List Nat :=
  (List.range im.readAhead).filterMap fun k => if g + 1 + k < im.segments then some (g + 1 + k) else none

/-- The read-ahead entries of a READ whose last piece lies in segment `g` (R116). -/
def State.listAheadFrom (s : State) (p : Port) (i g : Nat) : State :=
  match s.images[i]? with
  | some im => (im.aheadOf g).foldl (fun t k => t.listAhead p i k) s
  | none => s

/-! ## Taking an entry (R128, R129) -/

/-- Appends an entry at the tail of a queue. -/
def State.enqueue (s : State) (p : Port) (e : Entry) : State :=
  let t := s.modQueue p fun es => es ++ [e]
  { t with nextEntry := s.nextEntry + 1 }

/-- A queued frame: dropped with OVERRUN where the queue holds 4 entries, else taken (R128). -/
def State.takeQueued (s : State) (p : Port) (take : State → State) : State :=
  if 4 ≤ (s.port p).queue.length then s.stick p .overrun else take s

/-- Takes an entry that needs no lookup. -/
def State.takeEntry (s : State) (p : Port) (tag : Byte) (body : Body) (status : Option RespStatus) : State :=
  s.enqueue p ⟨s.nextEntry, tag, body, status, false⟩

/-- Takes a READ (R129, R137 to R141): refused at its translation, or looked up, with read-ahead listed unless it ended FAILED. -/
def State.takeRead (s : State) (p : Port) (tag : Byte) (address length : Nat) (stream : Bool) : State :=
  let refused := fun x : RespStatus =>
    s.takeEntry p tag (.read ⟨address, length, stream, none, 0, false, [], []⟩) (some x)
  match translateRead s.images p address length with
  | .badReq => refused .badReq
  | .denied => refused .denied
  | .found i d short ps =>
    let e : Entry := ⟨s.nextEntry, tag, .read ⟨address, length, stream, some i, d, short, ps, []⟩, none, false⟩
    let r := State.lookups p i (distinctSegments ps) e s
    let t := r.1.enqueue p r.2
    if r.2.status = some .failed then t
    else
      match ps.getLast? with
      | some x => t.listAheadFrom p i x.segment
      | none => t

/-- A WRITE's data is empty or runs past the end of its page (R129). -/
def pageFault (address : Nat) (data : Bytes) : Bool := data.isEmpty || 256 < address % 256 + data.length

/-- A flash address may be written (R121). -/
def State.writable (s : State) (address : Nat) : Bool :=
  match s.fuseImage with
  | none => false
  | some f =>
    match f.regionOf address with
    | some (.bank b) =>
      match s.manifest.state with
      | .serving => s.activeBank != some b
      | .recoveryServing => true
      | _ => false
    | _ => false

/-- The judgement of a WRITE or ERASE at its taking: refused, or left waiting for its grant (R121, R129). -/
def State.judgeWrite (s : State) (p : Port) (address : Nat) (malformed : Bool) : Option RespStatus :=
  if p = .b then some .badReq
  else if malformed then some .badReq
  else if s.writable address then none
  else some .denied

/-! ## The commands -/

/-- READ (R125, R128, R129, R137 to R141). -/
def execRead (p : Port) (tag : Byte) (address : BitVec 32) (length : BitVec 16) (flags : Byte) (s : State) :
    Host.Outcome State Fault Refusal :=
  .next (s.endFrame p sendsStatus fun _ t =>
    t.takeQueued p fun u => u.takeRead p tag address.toNat length.toNat (streamMark flags))

/-- TRANSLATE (R125, R128, R129, R141, R142). -/
def execTranslate (p : Port) (tag : Byte) (address : BitVec 32) (s : State) :
    Host.Outcome State Fault Refusal :=
  .next (s.endFrame p sendsStatus fun _ t =>
    t.takeQueued p fun u =>
      u.takeEntry p tag (.translate address.toNat (u.translationRecord p address.toNat)) (some .ok))

/-- WRITE (R121, R123, R128, R129, R143); no more than 256 data bytes are kept. -/
def execWrite (p : Port) (tag : Byte) (address : BitVec 32) (data : Bytes) (s : State) : Host.Outcome State Fault Refusal :=
  .next (s.endFrame p sendsStatus fun _ t =>
    t.takeQueued p fun u =>
      u.takeEntry p tag (.write address.toNat (data.take 256)) (u.judgeWrite p address.toNat (pageFault address.toNat data)))

/-- ERASE (R106, R121, R123, R128, R129, R143). -/
def execErase (p : Port) (tag : Byte) (address : BitVec 32) (s : State) : Host.Outcome State Fault Refusal :=
  .next (s.endFrame p sendsStatus fun _ t =>
    t.takeQueued p fun u =>
      u.takeEntry p tag (.erase address.toNat) (u.judgeWrite p address.toNat false))

/-- What a COLLECT frame does at its end: the entry whose response was bound leaves the queue (R131); nothing bound, nothing leaves
(R132). -/
def State.collect (s : State) (p : Port) (f : SpiFrame) : State :=
  match (s.port p).queue with
  | e :: es => if e.status.isSome && f.bound = some e.id then (s.detach p e e.stream).modQueue p fun _ => es else s
  | [] => s

/-- COLLECT (R131, R132, R134, R136). -/
def execCollect (p : Port) (clocked : Nat) (s : State) : Host.Outcome State Fault Refusal :=
  .next (s.endFrame p (sendsAnswer p clocked) fun f t => t.collect p f)

/-- STATUS (R135): the sticky flags reported set are cleared. -/
def execStatus (p : Port) (s : State) : Host.Outcome State Fault Refusal :=
  .next (s.endFrame p sendsStatus fun f t => t.modPort p fun v => v.clearReported f.status)

/-- What a REBOOT frame does (R99, R117, R136, R145, R154). -/
def State.rebootPort (s : State) (p : Port) : State :=
  let t := ((s.emptyQueue p).modPort p fun v => v.assert .rebooting).dropReadAhead fun r => r.origin == p
  match p with
  | .a => t
  | .b => t.setRequest false

/-- REBOOT (R145). -/
def execReboot (p : Port) (s : State) : Host.Outcome State Fault Refusal :=
  .next (s.endFrame p sendsStatus fun _ t => t.rebootPort p)

/-- PERMIT_ON (R129, R144): Port B's request is set; on Port A the frame is queued as BADREQ with tag 0. -/
def execPermitOn (p : Port) (s : State) : Host.Outcome State Fault Refusal :=
  .next (s.endFrame p sendsStatus fun _ t =>
    match p with
    | .a => t.takeQueued .a fun u => u.takeEntry .a 0 .permitOn (some .badReq)
    | .b => t.setRequest true)

/-- PERMIT_OFF (R129, R144): Port B's request is cleared; on Port A the frame is queued as BADREQ with tag 0. -/
def execPermitOff (p : Port) (s : State) : Host.Outcome State Fault Refusal :=
  .next (s.endFrame p sendsStatus fun _ t =>
    match p with
    | .a => t.takeQueued .a fun u => u.takeEntry .a 0 .permitOff (some .badReq)
    | .b => t.setRequest false)

/-- MALFORMED_FRAME (R125, R127): the frame is ignored, BADFRAME set and PORT_FAULT raised. Bits that R125 takes as a frame are
no malformed frame: the command cannot occur with them. -/
def execMalformedFrame (p : Port) (received : List Bool) (s : State) : Host.Outcome State Fault Refusal :=
  .next (s.when (parseFrame (wholeBytes received)).isNone
    (s.endFrame p sendsStatus fun _ t => t.stick p .badFrame))

/-- COLLECT_WINDOW_EXPIRY (R133, R134): the head's ready response is dropped, unless it is bound to a running frame: then the
expiry is held until the frame ends. -/
def execCollectWindowExpiry (p : Port) (s : State) : Host.Outcome State Fault Refusal :=
  .next (s.when (s.live && (s.port p).windowRuns)
    (if (s.port p).frameLive && (match (s.port p).frame with | some f => f.bound == (s.port p).readyHead | none => false) then
      s.modPort p fun u => { u with frame := u.frame.map fun f => { f with heldExpiry := true } }
    else s.dropHead p))

end Sys2Proof.Machine
end

