-- ==== Sys2Proof/Machine/Power.lean ====
section
/-! DEFINITION. Machine/Power.lean: supplies and RESET_N: the meanings of POWER_ON, POWER_LOSS, RESET_N_ASSERT and
RESET_N_RELEASE (R16, R17, R47, R189 and each chapter's restart table). -/

namespace Sys2Proof.Machine

/-- No frame runs on either port: CS_N is taken to be high when the supplies become good (log entry 6). -/
def State.framesClosed (s : State) : State :=
  (s.modPort .a fun u => { u with frame := none, sent := .nothing }).modPort .b fun u => { u with frame := none, sent := .nothing }

/-- POWER_ON (R17, R189): the straps are sampled; with RESET_N high the verifier enters STARTING, with RESET_N low no block acts
until it is released (DEDUCED, log entry 27). -/
def execPowerOn (straps : BitVec 2) (s : State) : Host.Outcome State Fault Refusal :=
  .next (s.when (!s.supplies)
    (let t : State := { s.framesClosed with supplies := true }
    if s.resetN then t.coldStart straps else t.coldStop straps))

/-- POWER_LOSS (R16, R43): any burn, flash read or pending restart is cut off at once, with no completion and no result.
Until the supplies are good again the master reset lines are shown asserted (DESIGN CHOICE, log entry 33) and the permit lines
released and the ready lines low (DESIGN CHOICE, log entry 35): R9, R174 and R124 give them from power-on and from RESET_N on. -/
def execPowerLoss (s : State) : Host.Outcome State Fault Refusal :=
  .next (s.when s.supplies { s.coldStop s.service.straps with supplies := false })

/-- RESET_N_ASSERT (R16, R17, R43, R108): every block stops at once. -/
def execResetNAssert (s : State) : Host.Outcome State Fault Refusal :=
  .next (s.when s.resetN
    { (if s.supplies then s.coldStop s.service.straps else s) with resetN := false })

/-- RESET_N_RELEASE (R17, R47, R189): the straps are sampled again and the verifier enters STARTING. -/
def execResetNRelease (straps : BitVec 2) (s : State) : Host.Outcome State Fault Refusal :=
  .next (s.when (!s.resetN)
    { (if s.supplies then s.coldStart straps else s) with resetN := true })

end Sys2Proof.Machine
end

