-- ==== Sys2Proof/Machine/Service.lean ====
section
/-! DEFINITION. Machine/Service.lean: the service port and the fuse commands: the meanings of SET_POINTER, READ_TRANSACTION, the
record writes, FLOOR_ADVANCE, REVOKE_SLOT, BAD_COMMAND, FUSE_BURN_COMPLETION, RESTART_SEQUENCE and SERVICE_RESTART
(11_service_port.md; 01, The fuse controller; 12_formats.md, Service record map). -/

namespace Sys2Proof.Machine

/-! ## Pointer and transactions -/

/-- The part's I2C address: 0x58 plus the straps (R189). -/
def ServicePort.address (v : ServicePort) : BitVec 7 := 0x58#7 + v.straps.zeroExtend 7

/-- An implemented address: 0x00 to 0x27, 0x30, 0x40 to 0x4F (R191). -/
def implemented (p : Nat) : Bool := p ≤ 0x27 || p == 0x30 || (0x40 ≤ p && p ≤ 0x4F)

/-- The next implemented address above `p`, or 0x00 (R191). -/
def nextImplemented (p : Nat) : Nat :=
  if p < 0x27 then p + 1 else if p < 0x30 then 0x30 else if p < 0x40 then 0x40 else if p < 0x4F then p + 1 else 0

/-- The pointer after the byte at `p` (R191). -/
def stepPointer (autoIncrement : Bool) (p : BitVec 7) : BitVec 7 :=
  if autoIncrement then BitVec.ofNat 7 (nextImplemented p.toNat)
  else BitVec.ofNat 7 (p.toNat / 8 * 8 + (p.toNat + 1) % 8)

/-- The pointer steps. -/
def ServicePort.step (v : ServicePort) : ServicePort := { v with pointer := stepPointer v.autoIncrement v.pointer }

/-- Changes the service port. -/
def State.modService (s : State) (f : ServicePort → ServicePort) : State := { s with service := f s.service }

/-- The record addresses with a meaning of their own for a written byte (12_formats.md, Service record map). -/
def addrClear : BitVec 7 := 0x11
def addrMask : BitVec 7 := 0x12
def addrOptionMask : BitVec 7 := 0x15
def addrArgument : BitVec 7 := 0x18
def addrCode : BitVec 7 := 0x19
def addrSelect : BitVec 7 := 0x30
def addrPeriod : PeriodEvent → BitVec 7
  | .imageComplete => 0x13
  | .rescanPass => 0x14

/-- The command that a data byte of the running write transaction is, by the address the pointer names (R190, R194 to R198):
the rows IMAGE_SELECT_WRITE to BAD_COMMAND. A byte of a restart candidate is REGISTER_WRITE's (R200). -/
def dataByteCommand (v : ServicePort) (byte : Byte) : Instr :=
  if v.transaction != .writing then .registerWrite byte
  else if v.pointer = addrSelect then .imageSelectWrite byte
  else if v.pointer = addrClear then .clearWrite byte
  else if v.pointer = addrMask then .eventMaskWrite byte
  else if v.pointer = addrPeriod .imageComplete then .periodWrite .imageComplete byte
  else if v.pointer = addrPeriod .rescanPass then .periodWrite .rescanPass byte
  else if v.pointer = addrCode then
    if byte = 0xA1 then .floorAdvance else if byte = 0xA2 then .revokeSlot else .badCommand byte
  else .registerWrite byte

/-- The pointer byte of a write transaction sets the pointer and AI; 0x7F begins a restart candidate (R190, R200). -/
def ServicePort.setPointer (v : ServicePort) (byte : Byte) : ServicePort :=
  { v with
    pointer := byte.truncate 7
    autoIncrement := byte.getLsbD 7
    transaction := if byte = 0x7F then .candidate 0 else .writing }

/-- The part's address with the write bit ends the transaction that runs, and is acknowledged if it is the part's own (R189, R190). -/
def ServicePort.addressed (v : ServicePort) (own : Bool) : ServicePort :=
  { v with transaction := .none, capture := none, acked := own }

/-- SET_POINTER (R189, R190, R200): the part acknowledges its own address, and then takes the pointer byte; with no byte after the
address, or one cut short, pointer and AI stay as they were. Any other address is not acknowledged, and the transaction is not the
part's. START and STOP are no commands of their own (DESIGN CHOICE, log entry 29). -/
def execSetPointer (address : BitVec 7) (byte : Option Byte) (s : State) : Host.Outcome State Fault Refusal :=
  .next (s.when s.live (s.modService fun v =>
    if address = v.address then
      match byte with
      | some b => (v.addressed true).setPointer b
      | none => v.addressed true
    else v.addressed false))

/-! ## Record bytes (R193, R194; 12_formats.md, Service record map) -/

/-- Codes of the status record. -/
def VerifierState.code : VerifierState → Nat
  | .starting => 0
  | .walking => 1
  | .serving => 2
  | .recoveryServing => 3
  | .switching => 4
  | .locked => 5
def lockedCode : Option LockedCause → Nat
  | none => 0
  | some .selftest => 1
  | some .noManifest => 2
def sourceCode : Option Summary → Nat
  | none => 0
  | some ⟨.bank .bank0, _⟩ => 1
  | some ⟨.bank .bank1, _⟩ => 2
  | some ⟨.recovery, _⟩ => 3
def PermitState.code : PermitState → Nat
  | .withheld => 0
  | .rising => 1
  | .granted => 2
  | .falling => 3
  | .tripped => 4
def WalkError.code : WalkError → Nat
  | .none => 0x00
  | .noMarker => 0x01
  | .badKind => 0x02
  | .badLength => 0x03
  | .keyMismatch => 0x04
  | .keyRevoked => 0x05
  | .badSignature => 0x06
  | .belowFloor => 0x07
  | .tooDeep => 0x08
  | .tableFull => 0x09
  | .digestStoreFull => 0x0A
  | .badWindow => 0x0C
  | .windowOverlap => 0x0D
  | .outOfRegion => 0x0E
  | .badEntry => 0x0F
  | .notTried => 0xFF
def CauseKind.code : CauseKind → Nat
  | .segment => 1
  | .block => 2
  | .rescan => 3
def PortState.code : PortState → Nat
  | .held => 0
  | .released => 1
  | .rebooting => 2
def FlashOp.code : FlashOp → Nat
  | .idle => 0
  | .readyWait => 1
  | .walkRead _ => 1
  | .unitRead _ _ => 1
  | .programming _ _ => 2
  | .erasing _ _ => 3
  | .resetting _ => 4
def ResultStatus.code : ResultStatus → Nat
  | .noResult => 0
  | .busy => 1
  | .done => 2
  | .refused => 3
  | .fault => 4
  | .aborted => 5
def RefusalReason.code : RefusalReason → Nat
  | .none => 0
  | .notServing => 1
  | .tripLatched => 2
  | .imagesIncomplete => 3
  | .badSlot => 4
  | .activeSlot => 5
  | .alreadyRevoked => 6
  | .badCommand => 7
def ImageState.code : ImageState → Nat
  | .pending => 0
  | .complete => 1
  | .failed => 2
def ReleaseMode.bitCode : ReleaseMode → Nat
  | .eager => 0
  | .lazy => 1
def WindowMode.bitCode : WindowMode → Nat
  | .linear => 0
  | .mirror => 1
def Owner.code : Owner → Nat
  | .a => 1
  | .b => 2
  | .both => 3
def failureMark : Option FailureRecord → Nat
  | none => 0
  | some (.segment _) => 1
  | some (.block _) => 2
def failureIndex : Option FailureRecord → Nat
  | none => 0
  | some (.segment k) => k
  | some (.block k) => k

/-- The floor and the revoked mask as reported: 0 while the fuse image holds no values (R193). -/
def State.reportedFloor (s : State) : Nat := match s.fuseImage with | some f => f.floorLevel | none => 0
def State.reportedRevoked (s : State) : Nat :=
  match s.fuseImage with
  | some f => bit f.revoked[0] + 2 * bit f.revoked[1] + 4 * bit f.revoked[2] + 8 * bit f.revoked[3]
  | none => 0

/-- The trip cause bytes, 0x05 to 0x08. -/
def causeBytes : Option TripCause → Bytes
  | none => zeros 4
  | some c => [BitVec.ofNat 8 (128 + c.kind.code), BitVec.ofNat 8 c.image] ++ be16 c.index

/-- The status record, 0x00 to 0x0F (R193). -/
def State.statusRecord (s : State) : Bytes :=
  [BitVec.ofNat 8 (s.manifest.state.code + 16 * lockedCode s.manifest.lockedCause),
   BitVec.ofNat 8 (sourceCode s.manifest.summary + 16 * s.permit.state.code),
   BitVec.ofNat 8 s.manifest.errorBank0.code, BitVec.ofNat 8 s.manifest.errorBank1.code,
   BitVec.ofNat 8 s.manifest.errorRecovery.code] ++
  causeBytes s.permit.cause ++
  [s.options.word, BitVec.ofNat 8 s.reportedFloor, BitVec.ofNat 8 (s.reportedRevoked + 16 * s.rescan.debt)] ++
  be16 s.rescan.passCount.toNat ++
  [BitVec.ofNat 8 (s.portA.state.code + 4 * s.portB.state.code + 16 * s.flash.op.code), 0]

/-- The event record, 0x10 to 0x17; the clear field reads 0 (R195 to R197). -/
def State.eventRecord (s : State) : Bytes :=
  [s.service.flags, 0, s.service.mask, BitVec.ofNat 8 s.service.imagePeriod, BitVec.ofNat 8 s.service.passPeriod,
   s.options.eventMask, 0, 0]

/-- The command and result record, 0x18 to 0x1F (R198, R199). -/
def State.commandRecord (s : State) : Bytes :=
  [s.service.argument, s.service.code, BitVec.ofNat 8 s.service.result.code, BitVec.ofNat 8 s.service.reason.code,
   BitVec.ofNat 8 (bit s.service.ignored), 0, 0, 0]

/-- The four identification bytes, and again (R193; 12_formats.md). -/
def identification : Bytes := [0x3D, 0x34, 0x20, 0x01, 0x3D, 0x34, 0x20, 0x01]

/-- The image record of the selected image, 0x40 to 0x4F; all 0 where the table holds none of that index (R194). -/
def State.imageRecordBytes (s : State) : Bytes :=
  match s.images[s.service.select]? with
  | none => zeros 16
  | some im =>
    [BitVec.ofNat 8 (128 + 64 * bit im.included + 16 * im.state.code + 8 * im.releaseMode.bitCode +
        4 * im.windowMode.bitCode + im.owner.code),
     BitVec.ofNat 8 (failureMark im.failure)] ++
    im.name.take 8 ++ be16 im.segments ++ be16 im.verified ++ be16 (failureIndex im.failure)

/-- The first address of a record, and the record an address lies in (R192). -/
def Record.base : Record → Nat
  | .status => 0x00
  | .event => 0x10
  | .command => 0x18
  | .identification => 0x20
  | .select => 0x30
  | .image => 0x40
def recordAt (p : Nat) : Option Record :=
  if p < 0x10 then some .status
  else if p < 0x18 then some .event
  else if p < 0x20 then some .command
  else if p < 0x28 then some .identification
  else if p = 0x30 then some .select
  else if 0x40 ≤ p ∧ p < 0x50 then some .image
  else none

/-- A record's bytes as it stands (R192 to R199). -/
def State.recordBytes (s : State) : Record → Bytes
  | .status => s.statusRecord
  | .event => s.eventRecord
  | .command => s.commandRecord
  | .identification => identification
  | .select => [BitVec.ofNat 8 s.service.select]
  | .image => s.imageRecordBytes

/-- The capture that serves a byte at address `p`: the one held, if it is of that record, else the record as it stands (R192). -/
def State.captureFor (s : State) (held : Option (Record × Bytes)) (p : Nat) : Option (Record × Bytes) :=
  match recordAt p, held with
  | none, _ => none
  | some r, none => some (r, s.recordBytes r)
  | some r, some c => if c.1 = r then some c else some (r, s.recordBytes r)

/-- The byte at an address from the capture that serves it; 0x00 at an address that holds nothing (R191). -/
def capturedByte (c : Option (Record × Bytes)) (p : Nat) : Byte :=
  match c with
  | some (r, b) => b.getD (p - r.base) 0
  | none => 0

/-- The byte that a fresh capture shows at an address (R191, R192). -/
def State.recordByte (s : State) (p : Nat) : Byte := capturedByte (s.captureFor none p) p

/-- A capture is dropped when the pointer steps out of its record (R192). -/
def keepCapture (c : Option (Record × Bytes)) (p : Nat) : Option (Record × Bytes) :=
  if c.map (·.1) = recordAt p then c else none

/-- `n` bytes of a read transaction: the bytes sent, and the port with pointer and capture as they leave them (R191, R192). Each
record entered is captured at its first byte; no event falls among the `n` bytes. -/
def State.sendBytes (s : State) : Nat → ServicePort → Bytes × ServicePort
  | 0, v => ([], v)
  | n + 1, v =>
    let c := s.captureFor v.capture v.pointer.toNat
    let w := v.step
    let r := State.sendBytes s n { w with capture := keepCapture c w.pointer.toNat }
    (capturedByte c v.pointer.toNat :: r.1, r.2)

/-- Bytes of the read transaction under way join those it has sent (R191). -/
def State.sendMore (s : State) (count : Nat) : State :=
  let r := s.sendBytes count s.service
  s.modService fun v => { r.2 with sent := v.sent ++ r.1 }

/-- READ_TRANSACTION (R189, R191 to R194): a read transaction to the part's own address begins, with nothing captured, or the one
that runs goes on; its bytes may come in several commands, with other events between (DESIGN CHOICE, log entry 17). -/
def execReadTransaction (start : Option (BitVec 7)) (count : Nat) (s : State) : Host.Outcome State Fault Refusal :=
  .next (s.when s.live (
    match start with
    | some address =>
      if address = s.service.address then
        (s.modService fun v => { v with transaction := .reading, capture := none, acked := true, sent := [] }).sendMore count
      else s.modService fun v => v.addressed false
    | none => s.when (s.service.transaction == .reading) (s.sendMore count)))

/-! ## Record writes (R190, R194 to R197) -/

/-- A data byte of an ordinary write transaction at address `p`: `effect`, and then the pointer steps and the byte has been
acknowledged. With the pointer elsewhere the byte is another row's (log entry 7). -/
def State.dataByte (s : State) (p : BitVec 7) (effect : State → State) : State :=
  s.when (s.live && s.service.transaction == .writing && s.service.pointer == p)
    ((effect s).modService fun v => { v.step with acked := true })

/-- IMAGE_SELECT_WRITE (R194). -/
def execImageSelectWrite (byte : Byte) (s : State) : Host.Outcome State Fault Refusal :=
  .next (s.dataByte addrSelect fun t => t.modService fun v => if byte.toNat ≤ 15 then { v with select := byte.toNat } else v)

/-- CLEAR_WRITE (R195, R196). -/
def execClearWrite (byte : Byte) (s : State) : Host.Outcome State Fault Refusal :=
  .next (s.dataByte addrClear fun t => t.modService fun v => v.clear byte)

/-- EVENT_MASK_WRITE (R197). -/
def execEventMaskWrite (byte : Byte) (s : State) : Host.Outcome State Fault Refusal :=
  .next (s.dataByte addrMask fun t => t.modService fun v => { v with mask := byte })

/-- PERIOD_WRITE (R196): a byte above 3 leaves period and counter as they are. -/
def execPeriodWrite (event : PeriodEvent) (byte : Byte) (s : State) : Host.Outcome State Fault Refusal :=
  .next (s.dataByte (addrPeriod event) fun t =>
    t.modService fun v => if byte.toNat ≤ 3 then v.setPeriod event byte.toNat else v)

/-- The addresses whose data bytes are rows of their own. -/
def ownRowAddress (p : BitVec 7) : Bool :=
  p == addrSelect || p == addrClear || p == addrMask || p == addrPeriod .imageComplete || p == addrPeriod .rescanPass ||
    p == addrCode

/-- A data byte stored in a plain field: the command argument or the option event masks; elsewhere nothing (R51, R190,
R198). -/
def State.storeField (s : State) (p : BitVec 7) (byte : Byte) : State :=
  if p = addrArgument then s.modService fun v => { v with argument := byte }
  else if p = addrOptionMask then { s with options := { s.options with eventMask := byte } }
  else s

/-- A data byte of a restart candidate: 0xC3 and then 0x3C are acknowledged; any other byte, or a third, is not, and the
candidate is abandoned; after that nothing is acknowledged. No record is written and the pointer stays (R200). -/
def candidateByte (x : Transaction) (byte : Byte) : Transaction × Bool :=
  match x with
  | .candidate 0 => if byte = 0xC3 then (.candidate 1, true) else (.abandoned, false)
  | .candidate 1 => if byte = 0x3C then (.candidate 2, true) else (.abandoned, false)
  | _ => (.abandoned, false)

/-- REGISTER_WRITE (R190, R200). -/
def execRegisterWrite (byte : Byte) (s : State) : Host.Outcome State Fault Refusal :=
  .next (match s.service.transaction with
    | .none => s
    | .reading => s
    | .writing =>
      if ownRowAddress s.service.pointer then s
      else s.dataByte s.service.pointer fun t => t.storeField s.service.pointer byte
    | x =>
      s.when s.live (s.modService fun v =>
        { v with transaction := (candidateByte x byte).1, acked := (candidateByte x byte).2 }))

/-! ## Commands (R11, R14, R198, R199) -/

/-- Sets the result record's status and reason (R199). -/
def State.setResult (s : State) (x : ResultStatus) (r : RefusalReason) : State :=
  s.modService fun v => { v with result := x, reason := r }

/-- A refusal at the taking (R11, R14, R198). -/
def State.refuse (s : State) (r : RefusalReason) : State := s.setResult .refused r

/-- A command's end: its result is set, FUSE_DONE is raised and the fuse controller is IDLE (R199). -/
def State.endCommand (s : State) (x : ResultStatus) : State :=
  (({ s with fuseController := .idle } : State).setResult x .none).raise .fuseDone

/-- A command taken puts the fuse controller in BURNING (R10, R199). -/
def State.startBurn (s : State) (c : FuseController) : State :=
  ({ s with fuseController := c } : State).setResult .busy .none

/-- A command write of a code (R198): ignored while the fuse controller is BURNING; else taken, its code kept and IGNORED
cleared, and handled by `handle`. -/
def State.commandWrite (s : State) (code : Byte) (handle : State → State) : State :=
  if s.fuseController = .idle then handle (s.modService fun v => { v with code := code, ignored := false })
  else s.modService fun v => { v with ignored := true }

/-- The reason FLOOR_ADVANCE is refused for, or none (R11). -/
def State.floorRefusal (s : State) : RefusalReason :=
  if s.manifest.state != .serving then .notServing
  else if s.permit.cause.isSome then .tripLatched
  else if !s.allIncludedComplete then .imagesIncomplete
  else .none

/-- FLOOR_ADVANCE judged in IDLE (R8, R11): refused, done at once, or started on the lowest unburned floor fuse with the active
root's level as target (DEDUCED for the corners no run reaches, log entry 24). -/
def State.judgeFloorAdvance (s : State) : State :=
  match s.floorRefusal with
  | .none =>
    match s.activeRoot, s.fuseImage with
    | some root, some f =>
      match f.nextFloorFuse with
      | some k => if root.level ≤ f.floorLevel then s.endCommand .done else s.startBurn (.burningFloor k root.level)
      | none => s.endCommand .done
    | _, _ => s.refuse .notServing
  | r => s.refuse r

/-- FLOOR_ADVANCE (R11, R198, R199). -/
def execFloorAdvance (s : State) : Host.Outcome State Fault Refusal :=
  .next (s.dataByte addrCode fun t => t.commandWrite 0xA1 State.judgeFloorAdvance)

/-- The slot is revoked in the fuse image. -/
def State.slotRevoked (s : State) (k : Fin 4) : Bool := match s.fuseImage with | some f => f.revoked[k] | none => false

/-- REVOKE_SLOT judged in IDLE on slot number `n` (R14): refused, or started on that slot's revoke fuse. -/
def State.judgeRevoke (s : State) (n : Nat) : State :=
  if s.manifest.state != .serving then s.refuse .notServing
  else
    if h : n < 4 then
      if s.activeRoot.map (·.keySlot) == some n then s.refuse .activeSlot
      else if s.slotRevoked ⟨n, h⟩ then s.refuse .alreadyRevoked
      else s.startBurn (.burningRevoke ⟨n, h⟩)
    else s.refuse .badSlot

/-- REVOKE_SLOT (R14, R198, R199). -/
def execRevokeSlot (s : State) : Host.Outcome State Fault Refusal :=
  .next (s.dataByte addrCode fun t => t.commandWrite 0xA2 fun u => u.judgeRevoke u.service.argument.toNat)

/-- BAD_COMMAND (R198): refused, or ignored while the fuse controller is BURNING. A fuse command's code is its own row's. -/
def execBadCommand (code : Byte) (s : State) : Host.Outcome State Fault Refusal :=
  .next (s.when (code != 0xA1 && code != 0xA2)
    (s.dataByte addrCode fun t => t.commandWrite code fun u => u.refuse .badCommand))

/-! ## Burns (R6, R10, R12, R14) -/

/-- A floor fuse's burn completes with read-back `good`: array and image take it (R6, R10). -/
def State.settleFloor (s : State) (k : Fin 32) (good : Bool) : State :=
  if good then
    { s with
      fuseArray := { s.fuseArray with floor := s.fuseArray.floor.set k .burned }
      fuseImage := s.fuseImage.map fun f => { f with floor := f.floor.set k true } }
  else
    { s with
      nextFree := s.nextFree + 1
      fuseArray := { s.fuseArray with floor := s.fuseArray.floor.set k (s.fuseArray.floor[k].unsettle s.nextFree) } }

/-- A revoke fuse's burn completes with read-back `good` (R6, R10). -/
def State.settleRevoke (s : State) (k : Fin 4) (good : Bool) : State :=
  if good then
    { s with
      fuseArray := { s.fuseArray with revoke := s.fuseArray.revoke.set k .burned }
      fuseImage := s.fuseImage.map fun f => { f with revoked := f.revoked.set k true } }
  else
    { s with
      nextFree := s.nextFree + 1
      fuseArray := { s.fuseArray with revoke := s.fuseArray.revoke.set k (s.fuseArray.revoke[k].unsettle s.nextFree) } }

/-- The next floor fuse to burn below the target level, if any is owed (R8, R12). -/
def State.nextBurn (s : State) (target : Nat) : Option (Fin 32) :=
  match s.fuseImage with
  | some f => if f.floorLevel < target then f.nextFloorFuse else none
  | none => none

/-- FLOOR_ADVANCE after a completed burn, the first case that applies (R12). -/
def State.afterFloorBurn (s : State) (target : Nat) (good : Bool) : State :=
  if !good then s.endCommand .fault
  else
    match s.nextBurn target with
    | none => s.endCommand .done
    | some k =>
      if s.manifest.state != .serving then s.endCommand .aborted
      else { s with fuseController := .burningFloor k target }

/-- A held restart takes effect once the fuse controller is IDLE (R16, R201). -/
def State.takePendingRestart (s : State) : State :=
  if s.service.pendingRestart && s.fuseController == .idle then s.serviceRestart else s

/-- FUSE_BURN_COMPLETION (R10, R12, R14, R16): the fuse is read back; the command ends, or the next floor fuse is burned; at an
end a held restart takes effect. -/
def execFuseBurnCompletion (readBack : Bool) (s : State) : Host.Outcome State Fault Refusal :=
  .next (if !s.live then s
    else
      match s.fuseController with
      | .idle => s
      | .burningFloor k target => ((s.settleFloor k readBack).afterFloorBurn target readBack).takePendingRestart
      | .burningRevoke k =>
        ((s.settleRevoke k readBack).endCommand (if readBack then .done else .fault)).takePendingRestart)

/-! ## Restart (R200, R201) -/

/-- RESTART_SEQUENCE (R200, R201): the STOP after both acknowledged data bytes sets the pending restart mark, and with the fuse
controller IDLE the restart takes effect at that STOP. -/
def execRestartSequence (s : State) : Host.Outcome State Fault Refusal :=
  .next (s.when (s.live && s.service.transaction == .candidate 2)
    (s.modService fun v => { v with transaction := .none, pendingRestart := true }).takePendingRestart)

/-- SERVICE_RESTART (R16, R17, R201): a pending restart takes effect with the fuse controller IDLE. -/
def execServiceRestart (s : State) : Host.Outcome State Fault Refusal :=
  .next (s.when (s.live && s.service.pendingRestart && s.fuseController == .idle) s.serviceRestart)

end Sys2Proof.Machine
end

