-- ==== Sys2Proof/Machine/Verify.lean ====
section
/-! DEFINITION. Machine/Verify.lean: the completions of the digest engine: the meanings of DIGEST_BLOCK_HASH_DONE,
SEGMENT_HASH_DONE and RESCAN_HASH_DONE (04_segment_verification.md, 05_the_segment_cache.md, 10_background_rescan.md). -/

namespace Sys2Proof.Machine

/-- The engine's unit completes and the waiting unit begins hashing (R72). -/
def State.advanceEngine (s : State) : State := { s with engine := ⟨s.engine.waiting, none⟩ }

/-- The digest engine's unit in progress, for the owner that `q` picks. -/
def State.unitDone (s : State) (q : UnitOwner → Bool) : Option HashUnit :=
  match s.engine.hashing with
  | some u => if s.live && q u.owner then some u else none
  | none => none

/-- The kinds of owner. -/
def UnitOwner.isLine : UnitOwner → Bool
  | .line _ _ _ => true
  | _ => false
def UnitOwner.isSlot : UnitOwner → Bool
  | .slot _ _ => true
  | _ => false
def UnitOwner.isRescan : UnitOwner → Bool
  | .rescan _ _ => true
  | _ => false

/-! ## Digest blocks (R67 to R70) -/

/-- The digest the engine produced for a slot equals the block's signed digest (R68). -/
def State.blockMatches (s : State) (n : Fin 8) (t : BlockTag) : Bool :=
  match s.storeEntry t.image t.block with
  | some e => sha256 s.slots[n].data == e.digest
  | none => false

/-- A matching digest block comparison (R68). -/
def State.blockGood (s : State) (n : Fin 8) : State := (s.modSlot n fun x => { x with state := .valid }).touchSlot n

/-- A mismatching digest block comparison (R69, R70). -/
def State.blockBad (s : State) (n : Fin 8) (t : BlockTag) : State :=
  let u := s.modSlot n Slot.freed
  let v : State := { u with store := u.store.modify (u.storeIndex t.image t.block) fun e => { e with state := .failed } }
  v.failImage ⟨t.image, .block, t.block⟩ fun w => w.endBlock t.image t.block

/-- The comparison of a digest block unit. -/
def State.compareBlock (s : State) (n : Fin 8) (t : BlockTag) : State :=
  if s.blockMatches n t then s.blockGood n else s.blockBad n t

/-- DIGEST_BLOCK_HASH_DONE (R68, R69, R72): the block is compared with its signed digest, unless its unit was discarded. -/
def execDigestBlockHashDone (s : State) : Host.Outcome State Fault Refusal :=
  .next (match s.unitDone UnitOwner.isSlot with
    | some ⟨.slot n t, false⟩ => s.advanceEngine.compareBlock n t
    | some _ => s.advanceEngine
    | none => s)

/-! ## Segments (R73 to R79, R91, R92) -/

/-- The bytes hash to the segment's entry in the digest block that a slot holds (R74). -/
def State.segmentMatches (s : State) (data : Bytes) (g : Nat) (k : Fin 8) : Bool :=
  sha256 data == digestEntry s.slots[k].data (g % Config.blockSegments)

/-- A waiter of a completed fill takes its pin, and its request may be decided by it (R91, R130). -/
def State.pinWaiter (s : State) (n : Fin 64) (g : Nat) (w : Waiter) : State :=
  match (s.port w.port).queue.find? fun e => e.id == w.entry with
  | none => s
  | some e =>
    (s.takePin n e.stream).modQueue w.port fun es => es.map fun x =>
      if x.id = w.entry then
        (x.withHolds (x.holds.map fun h => if h.segment = g then { h with hold := .pinned n } else h)).settle
      else x

/-- The completed line enters the LRU order by its fill class (R91, R93). -/
def State.enterLru (s : State) (n : Fin 64) : State :=
  if s.lines[n].fillClass == some .sweep then s.demoteLine n else s.touchLine n

/-- The line becomes VALID and its waiters take their pins in list order (R91). -/
def State.completeLine (s : State) (n : Fin 64) (g : Nat) : State :=
  let ws := s.lines[n].waiters
  let t := (s.modLine n fun x => { x with state := .valid, waiters := [] }).enterLru n
  ws.foldl (fun u w => u.pinWaiter n g w) t

/-- A matching segment comparison (R74, R75, R91). -/
def State.segmentGood (s : State) (n : Fin 64) (t : SegTag) (k : Fin 8) : State :=
  ((s.completeLine n t.segment).endHold k).verifySegment t.image t.segment

/-- A mismatching segment comparison (R76, R77, R92). -/
def State.segmentBad (s : State) (n : Fin 64) (t : SegTag) (k : Fin 8) : State :=
  (((s.freeLine n).endHold k).failSegment t.image t.segment).failImage ⟨t.image, .segment, t.segment⟩
    fun w => w.endSegment t.image t.segment

/-- The comparison of a segment unit; a segment already FAILED only frees the line (R79, R92). -/
def State.compareSegment (s : State) (n : Fin 64) (t : SegTag) (k : Fin 8) : State :=
  if s.segState t.image t.segment == .failed then (s.freeLine n).endHold k
  else if s.segmentMatches s.lines[n].data t.segment k then s.segmentGood n t k
  else s.segmentBad n t k

/-- SEGMENT_HASH_DONE (R72, R74, R76): the segment is compared with its entry in the held digest block, unless its unit was
discarded. -/
def execSegmentHashDone (s : State) : Host.Outcome State Fault Refusal :=
  .next (match s.unitDone UnitOwner.isLine with
    | some ⟨.line n t k, false⟩ => s.advanceEngine.compareSegment n t k
    | some _ => s.advanceEngine
    | none => s)

/-! ## Rescan (R184, R185) -/

/-- The rescan buffer becomes EMPTY (R183). -/
def State.emptyBuffer (s : State) : State := { s with rescan := { s.rescan with buffer := .empty, tag := none } }

/-- A VALID line of a segment found changed becomes STALE, or FREE where nothing pins it (R96). -/
def State.staleLine (s : State) (t : SegTag) : State :=
  match s.findLine t (fun x => x == .valid) with
  | none => s
  | some n =>
    if s.lines[n].pins = 0 then s.freeLine n
    else (s.modLine n fun x => { x with state := .stale, streamMark := false }).leaveLru n

/-- A rescan mismatch of a segment that is still VERIFIED (R185). -/
def State.rescanBad (s : State) (t : SegTag) : State :=
  ((s.failSegment t.image t.segment).failImage ⟨t.image, .rescan, t.segment⟩
    fun w => (w.staleLine t).endSegment t.image t.segment)

/-- The comparison of the rescan buffer (R184, R185). -/
def State.compareRescan (s : State) (t : SegTag) (k : Fin 8) : State :=
  let u := (s.endHold k).emptyBuffer
  if s.segState t.image t.segment == .verified && !s.segmentMatches s.rescan.data t.segment k then u.rescanBad t else u

/-- RESCAN_HASH_DONE (R72, R184, R185): the rescanned segment is compared, the hold released and the buffer emptied, unless the
unit was discarded. -/
def execRescanHashDone (s : State) : Host.Outcome State Fault Refusal :=
  .next (match s.unitDone UnitOwner.isRescan with
    | some ⟨.rescan t k, false⟩ => s.advanceEngine.compareRescan t k
    | some _ => s.advanceEngine
    | none => s)

end Sys2Proof.Machine
end

