-- ==== Sys2Proof/Machine/Manifest.lean ====
section
/-! DEFINITION. Machine/Manifest.lean: the reading of manifest bytes and the checks of the walk
(02_the_manifest_walk.md; 12_formats.md, Manifest header and Entries). Every function here is of bytes and settings alone; the
walk over State stands in Machine/Walk.lean. -/

namespace Sys2Proof.Machine

/-! ## The header (12_formats.md, Manifest header) -/

/-- The fixed value of the marker. -/
def markerBytes : Bytes := [0x43, 0x4A, 0x4D, 0x46]

/-- The marker holds its fixed value (R20, R23). -/
def hasMarker (b : Bytes) : Bool := slice b 0 4 == markerBytes

/-- The code of a manifest kind. -/
def ManifestKind.code : ManifestKind → Nat
  | .root => 1
  | .recovery => 2
  | .child => 3

/-- Header fields. -/
def headerKeySlot (b : Bytes) : Nat := byteAt b 5
def headerEntryCount (b : Bytes) : Nat := byteAt b 6
def headerTotalLength (b : Bytes) : Nat := le16 b 8
def headerLevel (b : Bytes) : Nat := byteAt b 10
def headerDebounce (b : Bytes) : Nat := byteAt b 11
def headerRescanInterval (b : Bytes) : Nat := le16 b 12
def headerDelays (b : Bytes) : Delays :=
  ⟨⟨le16 b 14, le16 b 16, le16 b 18⟩, ⟨le16 b 20, le16 b 22, le16 b 24⟩⟩
def headerPublicKey (b : Bytes) : Bytes := slice b 64 64

/-- The first check: marker and kind (R20, R23). -/
def checkMarkerKind (b : Bytes) (k : ManifestKind) : WalkError :=
  if !hasMarker b then .noMarker else if byteAt b 4 != k.code then .badKind else .none

/-- The second check: total length and entry count (R24). -/
def checkLength (b : Bytes) : WalkError :=
  if headerTotalLength b < 256 || 8192 < headerTotalLength b || headerEntryCount b < 1 || 16 < headerEntryCount b then
    .badLength
  else .none

/-- A slot vouches for a manifest's public key: it is programmed and the digests agree (R7, R25). -/
def KeySlot.vouches (k : KeySlot) (b : Bytes) : Bool := k.programmed && k.keyDigest == sha256 (headerPublicKey b)

/-- The third and fourth checks: the key and its revocation (R7, R25). A CHILD's slot must be in the mask of the CHILD entry
that led to it. -/
def checkKey (f : FuseImage) (k : ManifestKind) (mask : Byte) (b : Bytes) : WalkError :=
  match k with
  | .recovery => if f.recovery.vouches b then .none else .keyMismatch
  | _ =>
    if h : headerKeySlot b < 4 then
      if k == .child && !mask.getLsbD (headerKeySlot b) then .keyMismatch
      else if !(f.primary[headerKeySlot b]).vouches b then .keyMismatch
      else if f.revoked[headerKeySlot b] then .keyRevoked
      else .none
    else .keyMismatch

/-- The signature job of a whole manifest: every byte up to its total length but the signature field, with the public key and the
signature from the same buffer (R26; 12_formats.md, Manifest header). -/
def manifestJob (b : Bytes) : SignatureJob :=
  ⟨slice b 0 128 ++ slice b 192 (headerTotalLength b - 192), headerPublicKey b, slice b 128 64⟩

/-- Every delay lies in 0 to 1,023. -/
def Delays.inRange (d : Delays) : Bool :=
  d.rise.pl0 ≤ 1023 && d.rise.pl1 ≤ 1023 && d.rise.pl2 ≤ 1023 &&
    d.fall.pl0 ≤ 1023 && d.fall.pl1 ≤ 1023 && d.fall.pl2 ≤ 1023

/-- The sixth check: the floor, for a ROOT, and then the ranges of the settings fields (R8, R27). -/
def checkSettings (f : FuseImage) (k : ManifestKind) (b : Bytes) : WalkError :=
  match k with
  | .child => .none
  | .root =>
    if headerLevel b < f.floorLevel then .belowFloor
    else if 32 < headerLevel b || headerDebounce b < 1 || !(headerDelays b).inRange then .badEntry
    else .none
  | .recovery => if headerDebounce b < 1 || !(headerDelays b).inRange then .badEntry else .none

/-! ## Entries (12_formats.md, Entries; R29 to R35, R204) -/

/-- The fields every entry begins with. -/
def entryKind (b : Bytes) (o : Nat) : Nat := byteAt b o
def entryFlagged (b : Bytes) (o : Nat) : Bool := (b.getD (o + 1) 0).getLsbD 0
def entryLength (b : Bytes) (o : Nat) : Nat := le16 b (o + 2)

/-- The offset of the `k`-th entry: entries begin at byte 256, each after the one before it (R29). -/
def entryOffset (b : Bytes) : Nat → Nat
  | 0 => 256
  | k + 1 => entryOffset b k + entryLength b (entryOffset b k)

/-- Fields of an IMAGE entry. -/
def imageName (b : Bytes) (o : Nat) : Bytes := slice b (o + 4) 8
def imageOwnerCode (b : Bytes) (o : Nat) : Nat := byteAt b (o + 12)
def imageModeCode (b : Bytes) (o : Nat) : Nat := byteAt b (o + 13)
def imageReleaseCode (b : Bytes) (o : Nat) : Nat := byteAt b (o + 14)
def imageReadAhead (b : Bytes) (o : Nat) : Nat := byteAt b (o + 15)
def imageSegments (b : Bytes) (o : Nat) : Nat := le16 b (o + 16)
def imageFlashOffset (b : Bytes) (o : Nat) : Nat := le32 b (o + 20)
def imageDigestOffset (b : Bytes) (o : Nat) : Nat := le32 b (o + 24)
def imageWindowBase (b : Bytes) (o : Nat) : Nat := le32 b (o + 28)
def imageMirrorSpan (b : Bytes) (o : Nat) : Nat := le32 b (o + 32)

/-- The window mode field holds MIRROR; a code not listed counts as LINEAR for the length (R204). -/
def imageIsMirror (b : Bytes) (o : Nat) : Bool := imageModeCode b o == 2

/-- The digest blocks of `n` segments: ceil(n / 128) (R30). -/
def blocksOf (n : Nat) : Nat := ceilDiv n Config.blockSegments

/-- Where an IMAGE entry's condition stands, and its block digest list. -/
def imageConditionOffset (b : Bytes) (o : Nat) : Nat := o + 32 + (if imageIsMirror b o then 4 else 0)
def imageDigestListOffset (b : Bytes) (o : Nat) : Nat :=
  imageConditionOffset b o + (if entryFlagged b o then 4 else 0)

/-- The length the fields of an IMAGE entry call for (R204). -/
def imageEntryLength (b : Bytes) (o : Nat) : Nat :=
  32 + (if imageIsMirror b o then 4 else 0) + (if entryFlagged b o then 4 else 0) + 32 * blocksOf (imageSegments b o)

/-- The length the fields of a CHILD entry call for (R204). -/
def childEntryLength (b : Bytes) (o : Nat) : Nat := if entryFlagged b o then 16 else 12

/-- Fields of a CHILD entry. -/
def childOffset (b : Bytes) (o : Nat) : Nat := le32 b (o + 4)
def childKeyMask (b : Bytes) (o : Nat) : Byte := b.getD (o + 8) 0

/-- The tests of R29: what kind of entry stands at offset `o`, or BAD_ENTRY. -/
def classifyEntry (b : Bytes) (o : Nat) (k : ManifestKind) : Option Bool :=
  if headerTotalLength b < o + entryLength b o then none
  else if entryKind b o == 1 then if entryLength b o == imageEntryLength b o then some true else none
  else if entryKind b o == 2 then
    if entryLength b o == childEntryLength b o && k != .recovery then some false else none
  else none

/-- A condition field: none where its option bit is above 7 or its sense not listed (R30, R35, R203). -/
def conditionAt (b : Bytes) (o : Nat) : Option Condition :=
  if h : byteAt b o < 8 then
    if byteAt b (o + 1) == 1 then some ⟨⟨byteAt b o, h⟩, .set⟩
    else if byteAt b (o + 1) == 2 then some ⟨⟨byteAt b o, h⟩, .clear⟩
    else none
  else none

/-- The condition an entry carries: `none` when it is ill-formed, `some none` when it carries none. -/
def entryCondition (b : Bytes) (flagged : Bool) (o : Nat) : Option (Option Condition) :=
  if flagged then (conditionAt b o).map some else some none

/-- Decodings of the coded fields (12_formats.md, Entries). -/
def ownerOf : Nat → Option Owner
  | 1 => some .a
  | 2 => some .b
  | 3 => some .both
  | _ => none

def windowModeOf : Nat → Option WindowMode
  | 1 => some .linear
  | 2 => some .mirror
  | _ => none

def releaseModeOf : Nat → Option ReleaseMode
  | 1 => some .eager
  | 2 => some .lazy
  | _ => none

/-- The numeric field tests of R30. -/
def imageFieldsInRange (b : Bytes) (o : Nat) : Bool :=
  1 ≤ imageSegments b o && imageSegments b o ≤ 8192 && imageFlashOffset b o % 4096 == 0 &&
    imageDigestOffset b o % 4096 == 0 && imageReadAhead b o ≤ 4

/-- A number that is a power of two from 4,096 to 2^24 (R31). -/
def isMirrorSpan (m : Nat) : Bool := (List.range 13).any fun k => m == 4096 * 2 ^ k

/-- The window span S of an IMAGE entry (R31). -/
def imageSpan (b : Bytes) (o : Nat) (m : WindowMode) : Nat :=
  match m with
  | .linear => imageSegments b o * Config.segmentBytes
  | .mirror => imageMirrorSpan b o

/-- The window is well formed (R31). -/
def windowWellFormed (b : Bytes) (o : Nat) (m : WindowMode) : Bool :=
  imageWindowBase b o % 4096 == 0 && imageWindowBase b o + imageSpan b o m ≤ Config.portSpace &&
    (m == .linear ||
      (isMirrorSpan (imageMirrorSpan b o) && imageSegments b o * Config.segmentBytes ≤ imageMirrorSpan b o))

/-- Two owners share a port (R32). -/
def Owner.shares (x y : Owner) : Bool := (x.sees .a && y.sees .a) || (x.sees .b && y.sees .b)

/-- Two spans share an address (R32). -/
def spansMeet (base span base' span' : Nat) : Bool := base < base' + span' && base' < base + span

/-- The window overlaps one already in the table on a port they share (R32). -/
def windowOverlaps (images : List Image) (owner : Owner) (base span : Nat) : Bool :=
  images.any fun im => im.owner.shares owner && spansMeet base span im.windowBase im.windowSpan

/-- An IMAGE entry judged: refused with an error, or the record and block digests it is appended with. -/
inductive ImageVerdict where
  | refused (e : WalkError)
  | accepted (im : Image) (digests : List Digest)
  deriving DecidableEq, Repr

/-- The region test of an IMAGE entry: the image and its digest table lie inside the region (R2, R30). -/
def imageInRegion (f : FuseImage) (src : Source) (b : Bytes) (o : Nat) : Bool :=
  imageFlashOffset b o + imageSegments b o * Config.segmentBytes ≤ f.regionBytes src &&
    imageDigestOffset b o + blocksOf (imageSegments b o) * Config.segmentBytes ≤ f.regionBytes src

/-- The record an accepted IMAGE entry is appended with (R34). -/
def imageRecord (f : FuseImage) (src : Source) (images : List Image) (stored : Nat) (outer : List Condition) (b : Bytes)
    (o : Nat) (owner : Owner) (mode : WindowMode) (release : ReleaseMode) (own : Option Condition) : Image where
  index := images.length
  name := imageName b o
  owner := owner
  segments := imageSegments b o
  windowBase := imageWindowBase b o
  windowMode := mode
  windowSpan := imageSpan b o mode
  releaseMode := release
  readAhead := imageReadAhead b o
  flashBase := f.regionBase src + imageFlashOffset b o
  digestBase := f.regionBase src + imageDigestOffset b o
  conditions := outer ++ own.toList
  firstStore := stored
  blockCount := blocksOf (imageSegments b o)
  included := false
  state := .pending
  verified := 0
  failure := none

/-- The block digests of an IMAGE entry, block 0 first (12_formats.md, Entries). -/
def imageDigests (b : Bytes) (o : Nat) : List Digest :=
  (List.range (blocksOf (imageSegments b o))).map fun k => slice b (imageDigestListOffset b o + 32 * k) 32

/-- The tests of an IMAGE entry in their order: fields, region, window, overlap, room (R30 to R33). -/
def judgeImage (f : FuseImage) (src : Source) (images : List Image) (stored : Nat) (outer : List Condition) (b : Bytes)
    (o : Nat) : ImageVerdict :=
  match ownerOf (imageOwnerCode b o), windowModeOf (imageModeCode b o), releaseModeOf (imageReleaseCode b o),
      entryCondition b (entryFlagged b o) (imageConditionOffset b o) with
  | some owner, some mode, some release, some own =>
    if !imageFieldsInRange b o then .refused .badEntry
    else if !imageInRegion f src b o then .refused .outOfRegion
    else if !windowWellFormed b o mode then .refused .badWindow
    else if windowOverlaps images owner (imageWindowBase b o) (imageSpan b o mode) then .refused .windowOverlap
    else if 16 ≤ images.length then .refused .tableFull
    else if 128 < stored + blocksOf (imageSegments b o) then .refused .digestStoreFull
    else .accepted (imageRecord f src images stored outer b o owner mode release own) (imageDigests b o)
  | _, _, _, _ => .refused .badEntry

/-- A CHILD entry judged: refused with an error, or the frame that is pushed (R35, R22, R28). -/
inductive ChildVerdict where
  | refused (e : WalkError)
  | pushed (frame : Frame)
  deriving DecidableEq, Repr

/-- The tests of a CHILD entry with `depth` frames on the stack, and the frame it pushes (R22, R28, R35). -/
def judgeChild (f : FuseImage) (src : Source) (depth : Nat) (b : Bytes) (o : Nat) : ChildVerdict :=
  match entryCondition b (entryFlagged b o) (o + 12) with
  | none => .refused .badEntry
  | some own =>
    if childOffset b o % 4096 != 0 then .refused .badEntry
    else if 3 ≤ depth then .refused .tooDeep
    else if f.regionBytes src < childOffset b o + Config.headerBytes then .refused .outOfRegion
    else .pushed ⟨[], f.regionBase src + childOffset b o, .child, 0, own, childKeyMask b o⟩

end Sys2Proof.Machine
end

