-- ==== Sys2Proof/Machine/Walk.lean ====
section
/-! DEFINITION. Machine/Walk.lean: STARTING's fuse load, self-check and headers, and the walk: the meanings of
FUSE_LOAD_DONE, SELF_CHECK_JOB_DONE, HEADER_READ_DONE, MANIFEST_READ_DONE, SIGNATURE_DONE and SWITCHING_TEARDOWN
(02_the_manifest_walk.md). -/

namespace Sys2Proof.Machine

/-- Changes the manifest unit. -/
def State.modManifest (s : State) (f : ManifestUnit → ManifestUnit) : State := { s with manifest := f s.manifest }

/-- Sets the walk error code of a source. -/
def ManifestUnit.setError (m : ManifestUnit) (src : Source) (e : WalkError) : ManifestUnit :=
  match src with
  | .bank .bank0 => { m with errorBank0 := e }
  | .bank .bank1 => { m with errorBank1 := e }
  | .recovery => { m with errorRecovery := e }

/-- The kind of manifest a candidate's base must hold (R23). -/
def Source.kind : Source → ManifestKind
  | .bank _ => .root
  | .recovery => .recovery

/-- Entry to LOCKED (R38). -/
def State.enterLocked (s : State) (c : LockedCause) : State :=
  s.modManifest fun m =>
    { m with state := .locked, startStep := none, lockedCause := some c, current := none, candidates := [], stack := [],
             walkRead := none, signatureJob := none, summary := none }

/-- Starts the walk of a candidate: frame 0 is pushed and its first 256 bytes are asked for (R22, R28). -/
def State.beginCandidate (s : State) (f : FuseImage) (src : Source) : State :=
  s.modManifest fun m =>
    { m with
      state := .walking
      startStep := none
      current := some src
      stack := [⟨[], f.regionBase src, src.kind, 0, none, 0⟩]
      walkRead := some ⟨f.regionBase src, Config.headerBytes⟩ }

/-- Walks the next listed bank, else the recovery manifest, else locks with NO_MANIFEST (R21, R36). -/
def State.nextCandidate (s : State) (f : FuseImage) (afterRecovery : Bool) : State :=
  match s.manifest.candidates with
  | b :: bs => (s.modManifest fun m => { m with candidates := bs }).beginCandidate f (.bank b)
  | [] => if !afterRecovery && f.hasRecovery then s.beginCandidate f .recovery else s.enterLocked .noManifest

/-- A candidate ends with an error: its code is recorded, stack and tables are emptied, and the next step is taken (R36). -/
def State.endCandidate (s : State) (f : FuseImage) (src : Source) (e : WalkError) : State :=
  let t := s.modManifest fun m => { m.setError src e with stack := [], walkRead := none, signatureJob := none }
  ({ t with images := [], store := [], segMap := [] } : State).nextCandidate f (src == .recovery)

/-- The walk of a candidate completes with frame 0, whose checked bytes are `b` (R37). -/
def State.completeWalk (s : State) (src : Source) (b : Bytes) : State :=
  let root := match src with
    | .bank _ => some (RootInfo.mk (headerLevel b) (headerKeySlot b))
    | .recovery => none
  let t : State := { s with
    images := s.images.map fun im => { im with included := conditionsHold s.options.word im.conditions }
    manifest := { s.manifest.setError src .none with
      state := match src with | .bank _ => .serving | .recovery => .recoveryServing
      current := none
      candidates := []
      stack := []
      summary := some ⟨src, root⟩ }
    options := { s.options with debounce := headerDebounce b }
    permit := { s.permit with delays := some (headerDelays b) }
    rescan := { s.rescan with interval := some (headerRescanInterval b), running := decide (0 < headerRescanInterval b) }
    arbiter := { s.arbiter with sweepImage := 0, sweepSegment := 0 } }
  ((t.raise .walkDone).judgeReleases).judgePermit

/-- Appends an accepted image: its record, its block digests in state GOOD, and its segments UNVERIFIED (R34). -/
def State.appendImage (s : State) (im : Image) (digests : List Digest) : State :=
  { s with
    images := s.images ++ [im]
    store := s.store ++ (digests.zipIdx.map fun d => ⟨im.index, d.2, d.1, .good⟩)
    segMap := s.segMap ++ [List.replicate im.segments .unverified] }

/-- What one step of entry processing comes to. -/
inductive WalkStep where
  /-- The entry was processed, or a child's frame popped: go on. -/
  | more (s : State)
  /-- A child manifest's read is outstanding. -/
  | await (s : State)
  | failed (e : WalkError)
  /-- Frame 0 is done; its bytes are `b`. -/
  | complete (b : Bytes)

/-- Processes the next entry of the top frame, or pops the frame when its entries are done (R28, R29, R34, R35). -/
def State.walkStep (s : State) (f : FuseImage) (src : Source) : WalkStep :=
  match s.manifest.stack with
  | [] => .failed .badEntry
  | top :: rest =>
    if headerEntryCount top.buffer ≤ top.next then
      match rest with
      | [] => .complete top.buffer
      | parent :: below =>
        .more (s.modManifest fun m => { m with stack := { parent with next := parent.next + 1 } :: below })
    else
      let o := entryOffset top.buffer top.next
      match classifyEntry top.buffer o top.kind with
      | none => .failed .badEntry
      | some true =>
        match judgeImage f src s.images s.store.length ((top :: rest).reverse.filterMap (·.condition)) top.buffer o with
        | .refused e => .failed e
        | .accepted im digests =>
          .more ((s.appendImage im digests).modManifest fun m => { m with stack := { top with next := top.next + 1 } :: rest })
      | some false =>
        match judgeChild f src (top :: rest).length top.buffer o with
        | .refused e => .failed e
        | .pushed frame =>
          .await (s.modManifest fun m =>
            { m with stack := frame :: top :: rest, walkRead := some ⟨frame.location, Config.headerBytes⟩ })

/-- Processes entries until a child is read, the candidate ends, or its walk completes. Three frames of at most 16 entries
take at most 51 steps, so 64 always suffice. -/
def State.walkEntries (f : FuseImage) (src : Source) : Nat → State → State
  | 0, s => s
  | n + 1, s =>
    match s.walkStep f src with
    | .more t => State.walkEntries f src n t
    | .await t => t
    | .failed e => s.endCandidate f src e
    | .complete b => s.completeWalk src b

/-- Asks for the next part of the top frame's manifest, at most 4,096 bytes (R22). -/
def State.readMore (s : State) (top : Frame) : State :=
  let part := min Config.segmentBytes (headerTotalLength top.buffer - top.buffer.length)
  s.modManifest fun m => { m with walkRead := some ⟨top.location + top.buffer.length, part⟩ }

/-- The manifest is whole in its buffer: its key is checked, and the signature job started (R25, R26; DEDUCED: the key is judged
once the manifest is whole, log entry 18). -/
def State.checkWhole (s : State) (f : FuseImage) (src : Source) (top : Frame) : State :=
  match checkKey f top.kind top.keyMask top.buffer with
  | .none => s.modManifest fun m => { m with signatureJob := some (manifestJob top.buffer) }
  | e => s.endCandidate f src e

/-- A manifest reached from a CHILD entry stays inside its region (R22). -/
def childInRegion (f : FuseImage) (src : Source) (top : Frame) : Bool :=
  top.kind != .child || top.location + headerTotalLength top.buffer ≤ f.regionBase src + f.regionBytes src

/-- The manifest's next part is read, or the manifest is whole (R22, R25). -/
def State.readOrCheck (s : State) (f : FuseImage) (src : Source) (top : Frame) : State :=
  if top.buffer.length < headerTotalLength top.buffer then s.readMore top else s.checkWhole f src top

/-- A part of the top frame's manifest has been read into its buffer; `first` is the 256-byte part (R22 to R26). -/
def State.judgePart (s : State) (f : FuseImage) (src : Source) (top : Frame) (first : Bool) : State :=
  if first then
    match checkMarkerKind top.buffer top.kind, checkLength top.buffer with
    | .none, .none =>
      if childInRegion f src top then s.readOrCheck f src top else s.endCandidate f src .outOfRegion
    | .none, e => s.endCandidate f src e
    | e, _ => s.endCandidate f src e
  else s.readOrCheck f src top

/-- FUSE_LOAD_DONE (R5, R9, R19): the fuse image and with it the flash map are set, the permit lines are driven inactive with
the permit WITHHELD, and the self-check begins. -/
def execFuseLoadDone (s : State) : Host.Outcome State Fault Refusal :=
  .next (s.when (s.live && s.manifest.startStep == some .fuseLoad)
    { s with
      fuseImage := some s.fuseArray.load
      permit := s.permit.restart true
      manifest := { s.manifest with startStep := some (.selfCheck false 0) } })

/-- The self-check after one more good job of an engine (R19). -/
def selfCheckAfter (digestDone : Bool) (signaturesDone : Nat) : Engine → Bool × Nat
  | .digest => (true, signaturesDone)
  | .signature => (digestDone, signaturesDone + 1)

/-- The engine has a job left in the self-check: one for the digest engine, two for the signature engine (R19). -/
def selfCheckOwed (digestDone : Bool) (signaturesDone : Nat) : Engine → Bool
  | .digest => !digestDone
  | .signature => signaturesDone < 2

/-- Asks for the header of a bank (R20). -/
def State.askHeader (s : State) (f : FuseImage) (b : Bank) : State :=
  s.modManifest fun m =>
    { m with startStep := some (.headers b), walkRead := some ⟨f.regionBase (.bank b), Config.headerBytes⟩ }

/-- SELF_CHECK_JOB_DONE (R19): a wrong result locks the part with SELFTEST (DEDUCED: at once, and with the jobs in any order,
log entry 9); the last good result starts the header reads. -/
def execSelfCheckJobDone (engine : Engine) (good : Bool) (s : State) : Host.Outcome State Fault Refusal :=
  .next (match s.manifest.startStep, s.fuseImage with
    | some (.selfCheck d n), some f =>
      if !(s.live && selfCheckOwed d n engine) then s
      else if !good then s.enterLocked .selftest
      else
        match selfCheckAfter d n engine with
        | (true, 2) => s.askHeader f .bank0
        | (d', n') => s.modManifest fun m => { m with startStep := some (.selfCheck d' n') }
    | _, _ => s)

/-- The flash controller ends a walk read: it returns to IDLE and the manifest unit has no read outstanding (R104, R115). -/
def State.endWalkRead (s : State) : State :=
  { s with flash := { s.flash with op := .idle }, manifest := { s.manifest with walkRead := none } }

/-- The walk read in progress at the flash is one of the length of `data` (R104). -/
def State.walkReadReturns (s : State) (data : Bytes) : Bool :=
  match s.flash.op with
  | .walkRead r => s.live && r.length == data.length
  | _ => false

/-- Keeps what the header of a bank showed: an error code, or the header level of a candidate (R20). -/
def ManifestUnit.judgeHeader (m : ManifestUnit) (b : Bank) (data : Bytes) : ManifestUnit :=
  match checkMarkerKind data .root, b with
  | .none, .bank0 => { m with levelBank0 := some (headerLevel data) }
  | .none, .bank1 => { m with levelBank1 := some (headerLevel data) }
  | e, _ => m.setError (.bank b) e

/-- The candidate list: the candidate banks in descending order of header level, bank 0 first among equals (R21). -/
def candidateList : Option Nat → Option Nat → List Bank
  | some x, some y => if x < y then [.bank1, .bank0] else [.bank0, .bank1]
  | some _, none => [.bank0]
  | none, some _ => [.bank1]
  | none, none => []

/-- HEADER_READ_DONE (R20, R21): the bank's marker and kind are judged and its header level kept; after bank 1 the candidate
list is formed and the first walk starts, or the part locks. -/
def execHeaderReadDone (data : Bytes) (s : State) : Host.Outcome State Fault Refusal :=
  .next (match s.manifest.startStep, s.fuseImage with
    | some (.headers b), some f =>
      if !s.walkReadReturns data then s
      else
        let t := s.endWalkRead.modManifest fun m => m.judgeHeader b data
        match b with
        | .bank0 => t.askHeader f .bank1
        | .bank1 =>
          (t.modManifest fun m => { m with candidates := candidateList m.levelBank0 m.levelBank1 }).nextCandidate f false
    | _, _ => s)

/-- MANIFEST_READ_DONE (R22 to R26): the bytes join the top frame's buffer; marker, kind, length, key and revocation are
checked, and the next part is read or the signature job started. -/
def execManifestReadDone (data : Bytes) (s : State) : Host.Outcome State Fault Refusal :=
  .next (match s.manifest.current, s.manifest.stack, s.fuseImage with
    | some src, top :: rest, some f =>
      if !(s.manifest.state == .walking && s.walkReadReturns data) then s
      else
        let top' := { top with buffer := top.buffer ++ data }
        (s.endWalkRead.modManifest fun m => { m with stack := top' :: rest }).judgePart f src top' top.buffer.isEmpty
    | _, _, _ => s)

/-- SIGNATURE_DONE (R26 to R37): the job's result arrives, which is the verdict its inputs decide; the other one cannot (log entry
5). On fail the candidate ends with BAD_SIGNATURE; on pass the settings are checked and the entries processed, until a child is
read, the candidate ends or its walk completes. -/
def execSignatureDone (pass : Bool) (s : State) : Host.Outcome State Fault Refusal :=
  .next (match s.manifest.current, s.manifest.stack, s.fuseImage, s.manifest.signatureJob with
    | some src, top :: rest, some f, some job =>
      if !(s.live && s.manifest.state == .walking && pass == job.passes) then s
      else
        let t := s.modManifest fun m => { m with signatureJob := none, stack := { top with next := 0 } :: rest }
        if !pass then t.endCandidate f src .badSignature
        else
          match checkSettings f top.kind top.buffer with
          | .none => State.walkEntries f src 64 t
          | e => t.endCandidate f src e
    | _, _, _, _ => s)

/-- SWITCHING_TEARDOWN (R41): once the flash controller is IDLE every table, slot and line is emptied, the rescan state is
cleared, and the recovery manifest is walked as the one candidate (DESIGN CHOICE: a step of its own, log entry 10). -/
def execSwitchingTeardown (s : State) : Host.Outcome State Fault Refusal :=
  .next (match s.fuseImage with
    | some f =>
      s.when (s.live && s.manifest.state == .switching && s.flash.op == .idle)
        ((s.emptyTables.modManifest fun m => { m with candidates := [], stack := [] }).beginCandidate f .recovery)
    | none => s)

end Sys2Proof.Machine
end

