-- ==== Sys2Proof/Machine/Dispatch.lean ====
section
/-! DEFINITION. Machine/Dispatch.lean: one arm per command, each a direct call of its meaning. -/

namespace Sys2Proof.Machine

def exec (i : Instr) (s : State) : Host.Outcome State Fault Refusal :=
  match i with
  | .powerOn straps => Sys2Proof.Machine.execPowerOn straps s
  | .powerLoss => Sys2Proof.Machine.execPowerLoss s
  | .resetNAssert => Sys2Proof.Machine.execResetNAssert s
  | .resetNRelease straps => Sys2Proof.Machine.execResetNRelease straps s
  | .flashReadyPollDone status => Sys2Proof.Machine.execFlashReadyPollDone status s
  | .flashReadyLimitExpiry => Sys2Proof.Machine.execFlashReadyLimitExpiry s
  | .flashResetSettleExpiry => Sys2Proof.Machine.execFlashResetSettleExpiry s
  | .fuseLoadDone => Sys2Proof.Machine.execFuseLoadDone s
  | .selfCheckJobDone engine good => Sys2Proof.Machine.execSelfCheckJobDone engine good s
  | .headerReadDone data => Sys2Proof.Machine.execHeaderReadDone data s
  | .manifestReadDone data => Sys2Proof.Machine.execManifestReadDone data s
  | .signatureDone pass => Sys2Proof.Machine.execSignatureDone pass s
  | .flashGrant => Sys2Proof.Machine.execFlashGrant s
  | .flashReadDone data => Sys2Proof.Machine.execFlashReadDone data s
  | .statusReadDone status => Sys2Proof.Machine.execStatusReadDone status s
  | .programLimitExpiry => Sys2Proof.Machine.execProgramLimitExpiry s
  | .eraseLimitExpiry => Sys2Proof.Machine.execEraseLimitExpiry s
  | .digestBlockHashDone => Sys2Proof.Machine.execDigestBlockHashDone s
  | .segmentHashDone => Sys2Proof.Machine.execSegmentHashDone s
  | .switchingTeardown => Sys2Proof.Machine.execSwitchingTeardown s
  | .rescanHashDone => Sys2Proof.Machine.execRescanHashDone s
  | .rescanTimerExpiry => Sys2Proof.Machine.execRescanTimerExpiry s
  | .optionSample levels => Sys2Proof.Machine.execOptionSample levels s
  | .holdTimerExpiry port => Sys2Proof.Machine.execHoldTimerExpiry port s
  | .riseDelayExpiry => Sys2Proof.Machine.execRiseDelayExpiry s
  | .fallDelayExpiry => Sys2Proof.Machine.execFallDelayExpiry s
  | .read port tag address length flags => Sys2Proof.Machine.execRead port tag address length flags s
  | .translate port tag address => Sys2Proof.Machine.execTranslate port tag address s
  | .write port tag address data => Sys2Proof.Machine.execWrite port tag address data s
  | .erase port tag address => Sys2Proof.Machine.execErase port tag address s
  | .collect port clocked => Sys2Proof.Machine.execCollect port clocked s
  | .status port => Sys2Proof.Machine.execStatus port s
  | .reboot port => Sys2Proof.Machine.execReboot port s
  | .permitOn port => Sys2Proof.Machine.execPermitOn port s
  | .permitOff port => Sys2Proof.Machine.execPermitOff port s
  | .malformedFrame port received => Sys2Proof.Machine.execMalformedFrame port received s
  | .collectWindowExpiry port => Sys2Proof.Machine.execCollectWindowExpiry port s
  | .setPointer address byte => Sys2Proof.Machine.execSetPointer address byte s
  | .readTransaction start count => Sys2Proof.Machine.execReadTransaction start count s
  | .imageSelectWrite byte => Sys2Proof.Machine.execImageSelectWrite byte s
  | .clearWrite byte => Sys2Proof.Machine.execClearWrite byte s
  | .eventMaskWrite byte => Sys2Proof.Machine.execEventMaskWrite byte s
  | .periodWrite event byte => Sys2Proof.Machine.execPeriodWrite event byte s
  | .registerWrite byte => Sys2Proof.Machine.execRegisterWrite byte s
  | .floorAdvance => Sys2Proof.Machine.execFloorAdvance s
  | .revokeSlot => Sys2Proof.Machine.execRevokeSlot s
  | .badCommand code => Sys2Proof.Machine.execBadCommand code s
  | .fuseBurnCompletion readBack => Sys2Proof.Machine.execFuseBurnCompletion readBack s
  | .restartSequence => Sys2Proof.Machine.execRestartSequence s
  | .serviceRestart => Sys2Proof.Machine.execServiceRestart s
  | .csNFall port => Sys2Proof.Machine.execCsNFall port s

end Sys2Proof.Machine
end

