-- ==== Sys2Proof/Safety.lean ====
section
/-! DEFINITION. Safety.lean: what counts as a safe state and a safe run, in the terms the statements use: the invariants of
the part's rules, and what an entry to STARTING leaves. -/

namespace Sys2Proof.Machine

/-! ## The order of STARTING -/

/-- A step of STARTING is under way only in STARTING, and the flash-ready wait, with a reset sequence that leads to it or
from it, only in STARTING's first step (R18 to R20, R102, R108). -/
structure StartOrder (s : State) : Prop where
  onlyStarting : s.manifest.startStep.isSome = true → s.manifest.state = .starting
  waitIsFirst : s.flash.op = .readyWait ∨ s.flash.op = .resetting .readyWait ∨ s.flash.op = .resetting .fuseLoad →
    s.manifest.startStep = some .flashWait

/-! ## Permit lines -/

/-- The lines that come before a line in the order PL0, PL1, PL2 (R160). -/
def PermitLine.before : PermitLine → List PermitLine
  | .pl0 => []
  | .pl1 => [.pl0]
  | .pl2 => [.pl0, .pl1]

/-- With the trip latch of the permit `c`, eligible and request both hold: the verifier is SERVING, every included image COMPLETE, no
trip latched, and the request set (R162, R163). -/
def State.permitWanted (s : State) (c : PermitController) : Prop :=
  s.manifest.state = .serving ∧ (∀ im ∈ s.images, im.included = true → im.state = .complete) ∧ c.cause = none ∧
    s.permitRequest = true

/-- A line is driven at its active level. -/
def State.lineActive (s : State) (l : PermitLine) : Prop := s.permit.lines.get l = .active

/-- What R160, R162, R166, R171 and R175 say of the permit at every moment. -/
structure PermitSafe (s : State) : Prop where
  /-- TRIPPED exactly while the trip latch is set, which is while a cause is present (R171, R172). -/
  trippedIffCause : s.permit.state = .tripped ↔ s.permit.cause.isSome = true
  /-- No line is active in WITHHELD and TRIPPED (R160). -/
  dark : s.permit.state = .withheld ∨ s.permit.state = .tripped → ∀ l, ¬ s.lineActive l
  /-- The active lines form a run from PL0 (R160). -/
  ordered : ∀ l, s.lineActive l → ∀ k ∈ l.before, s.lineActive k
  /-- GRANTED only with all lines active, the verifier SERVING, every included image COMPLETE, no trip latched and the
  request standing (R166). -/
  granted : s.permit.state = .granted → (∀ l, s.lineActive l) ∧ s.mayRise = true
  /-- RISING only while eligible and requested, with the pending line the next of the run (R164, R165, R168). -/
  rising : s.permit.state = .rising → s.mayRise = true ∧
    ∃ x, s.permit.timer = some x ∧ ¬ s.lineActive x.line ∧ ∀ k ∈ x.line.before, s.lineActive k
  /-- FALLING only in SERVING, with the pending line the highest active one (R167, R175). -/
  falling : s.permit.state = .falling → s.manifest.state = .serving ∧
    ∃ x, s.permit.timer = some x ∧ s.lineActive x.line ∧ ∀ k, s.lineActive k → k = x.line ∨ k ∈ x.line.before
  /-- The sequence timer is idle outside RISING and FALLING (R166, R172). -/
  timerIdle : s.permit.state ≠ .rising → s.permit.state ≠ .falling → s.permit.timer = none

/-- What the state rules make of the permit `c` at an event after which verifier, images and request stand as in `t`; `v` is the
service port before them (R161 to R168, R172, R173). A line at a delay of 0 changes together with the line before it. -/
structure PermitFollows (c : PermitController) (v : ServicePort) (t : State) : Prop where
  /-- FALLING and TRIPPED go on; the others stand where eligible and request ask for nothing else. -/
  stands : c.state = .falling ∨ c.state = .tripped ∨ (c.state = .withheld ∧ ¬ t.permitWanted c) ∨
    ((c.state = .rising ∨ c.state = .granted) ∧ t.permitWanted c) → t.permit = c ∧ t.service = v
  /-- WITHHELD with both holding rises, up to the first line with a rise delay. -/
  rises : ∀ d l, c.state = .withheld → t.permitWanted c → c.delays = some d → (∀ k ∈ l.before, d.rise.get k = 0) →
    d.rise.get l ≠ 0 →
    t.permit = { c with state := .rising, lines := t.permit.lines, timer := some ⟨l, d.rise.get l⟩ } ∧
      (∀ k, t.permit.lines.get k = if k ∈ l.before then .active else c.lines.get k) ∧ t.service = v
  risesAtOnce : ∀ d, c.state = .withheld → t.permitWanted c → c.delays = some d → (∀ k, d.rise.get k = 0) →
    t.permit = { c with state := .granted, lines := ⟨.active, .active, .active⟩, timer := none } ∧
      t.service = v.setFlag .permitChange
  /-- GRANTED and RISING with one lost fall, from the highest active line down to the first with a fall delay. -/
  falls : ∀ d l, c.state = .rising ∨ c.state = .granted → ¬ t.permitWanted c → c.delays = some d → c.lines.get l = .active →
    (∀ k, c.lines.get k = .active → l ∈ k.before → d.fall.get k = 0) → d.fall.get l ≠ 0 →
    t.permit = { c with state := .falling, lines := t.permit.lines, timer := some ⟨l, d.fall.get l⟩ } ∧
      (∀ k, t.permit.lines.get k = if c.lines.get k = .active ∧ l ∈ k.before then .inactive else c.lines.get k) ∧ t.service = v
  fallsAtOnce : ∀ d, c.state = .rising ∨ c.state = .granted → ¬ t.permitWanted c → c.delays = some d →
    (∃ k, c.lines.get k = .active) → (∀ k, c.lines.get k = .active → d.fall.get k = 0) →
    t.permit = { c with state := .withheld, lines := t.permit.lines, timer := none } ∧
      (∀ k, t.permit.lines.get k = if c.lines.get k = .active then .inactive else c.lines.get k) ∧
      t.service = v.setFlag .permitChange
  /-- However the permit moves, the service port sees PERMIT_CHANGE or nothing. -/
  raised : t.service = v ∨ t.service = v.setFlag .permitChange
  /-- RISING with no line active yet returns to WITHHELD. -/
  abandoned : c.state = .rising → ¬ t.permitWanted c → (∀ k, c.lines.get k ≠ .active) →
    t.permit = { c with state := .withheld, timer := none } ∧ t.service = v

/-! ## Ports -/

/-- What R124, R149 and R150 say of one port at every moment. -/
structure PortSafe (s : State) (p : Port) : Prop where
  releasedServes : (s.port p).state = .released → s.isServing = true
  heldEmpty : (s.port p).state ≠ .released → (s.port p).queue = []
  liveReleased : (s.port p).frameLive = true → (s.port p).state = .released

/-- At a judgement of its release condition a port that is not RELEASED is released exactly when the condition then holds, and stays
as it was otherwise; a RELEASED port stays RELEASED (R149, R150). -/
def PortJudged (s : State) (p : Port) (t : State) : Prop :=
  (t.port p).state = if (s.port p).state = .released ∨ t.releaseCondition p = true then .released else (s.port p).state

/-! ## Fuses -/

/-- The fuse image is held outside STARTING and the controller IDLE in it (R5), the fuse a burn is on reads unburned in the image
(R8, R14), and every fuse that the image holds as burned reads burned at every later load (R6, R10). -/
structure FuseSafe (s : State) : Prop where
  heldOutsideStarting : s.manifest.state ≠ .starting → s.fuseImage.isSome = true
  idleInStarting : s.manifest.state = .starting → s.fuseController = .idle
  floorTarget : ∀ k target, s.fuseController = .burningFloor k target → ∃ f, s.fuseImage = some f ∧ f.floor[k] = false
  revokeTarget : ∀ k, s.fuseController = .burningRevoke k → ∃ f, s.fuseImage = some f ∧ f.revoked[k] = false
  floorAgrees : ∀ f, s.fuseImage = some f → ∀ k : Fin 32, f.floor[k] = true → s.fuseArray.floor[k].reads = true
  revokeAgrees : ∀ f, s.fuseImage = some f → ∀ k : Fin 4, f.revoked[k] = true → s.fuseArray.revoke[k].reads = true

/-! ## Sizes -/

/-- The bounds on the tables, the walk stack, the segment map, the lists, the queues and the counts (R28, R33, R116, R128, R179,
R194, R196). -/
structure WithinBounds (s : State) : Prop where
  stack : s.manifest.stack.length ≤ 3
  images : s.images.length ≤ 16
  store : s.store.length ≤ 128
  readAhead : s.arbiter.readAhead.length ≤ 8
  debt : s.rescan.debt ≤ 8
  queueA : s.portA.queue.length ≤ 4
  queueB : s.portB.queue.length ≤ 4
  select : s.service.select ≤ 15
  periods : ∀ e, s.service.counter e ≤ s.service.period e ∧ s.service.period e ≤ 3
  /-- At most 128 segments for each block digest, so at most 16,384 in all. -/
  segments : (s.segMap.map List.length).sum ≤ 128 * s.store.length

/-! ## Counts -/

/-- The segment map has one list for each image, of its N segments, and the image's verified count is the number of its VERIFIED
segments; a COMPLETE image's count is N (R45, R60, R61). -/
structure CountsAgree (s : State) : Prop where
  lists : s.segMap.length = s.images.length
  counts : ∀ (i : Nat) (im : Image) (m : List SegState), s.images[i]? = some im → s.segMap[i]? = some m →
    m.length = im.segments ∧ im.verified = m.count .verified ∧ (im.state = .complete → im.verified = im.segments)

/-! ## Proven copies -/

/-- Bytes that hash to the signed block digest of a block (R68). -/
def State.provenBlock (s : State) (t : BlockTag) (b : Bytes) : Prop :=
  ∃ e, s.storeEntry t.image t.block = some e ∧ sha256 b = e.digest

/-- Bytes that hash to their segment's digest in a digest block that itself hashes to its signed block digest (R74). -/
def State.provenSegment (s : State) (t : SegTag) (data : Bytes) : Prop :=
  ∃ b, s.provenBlock ⟨t.image, blockOf t.segment⟩ b ∧ sha256 data = digestEntry b (t.segment % Config.blockSegments)

/-- The units in flight whose completion will act: the unit read at the flash, and the engine's two (R72, R111). -/
def State.liveUnits (s : State) : List UnitOwner :=
  ((match s.flash.op with | .unitRead u _ => [u] | _ => []) ++ s.engine.hashing.toList ++ s.engine.waiting.toList).filterMap
    fun u => if u.discarded then none else some u.owner

/-- The slot that a unit's comparison will use (R71). -/
def UnitOwner.uses : UnitOwner → Option (Fin 8)
  | .line _ _ k => some k
  | .slot _ _ => none
  | .rescan _ k => some k

/-- The block that the slot used by a unit must hold. -/
def UnitOwner.needs : UnitOwner → Option BlockTag
  | .line _ t _ => some ⟨t.image, blockOf t.segment⟩
  | .slot _ _ => none
  | .rescan t _ => some ⟨t.image, blockOf t.segment⟩

/-- A unit's buffer stands in the given states: a line's `x`, or a slot's `y`, with the unit's tag. -/
def State.ownerIs (s : State) (x : LineState) (y : SlotState) : UnitOwner → Prop
  | .line n t _ => s.lines[n].state = x ∧ s.lines[n].tag = some t
  | .slot n t => s.slots[n].state = y ∧ s.slots[n].tag = some t
  | .rescan _ _ => True

/-- Two units have different lines and different slots to fill. -/
def UnitOwner.apart : UnitOwner → UnitOwner → Prop
  | .line n _ _, .line m _ _ => n ≠ m
  | .slot n _, .slot m _ => n ≠ m
  | _, _ => True

/-- Every VALID digest slot holds a proven block and every VALID or STALE line a proven segment (R68, R74, R83), with what keeps it
so: a unit's line or slot is its own, the slot its comparison will use is VALID, held and of its block (R71), and outside
SERVING, RECOVERY_SERVING and SWITCHING lines and slots are FREE (R64, R100). -/
structure ProvenCopies (s : State) : Prop where
  slots : ∀ (n : Fin 8) (t : BlockTag), s.slots[n].state = .valid → s.slots[n].tag = some t → s.provenBlock t s.slots[n].data
  lines : ∀ (n : Fin 64) (t : SegTag), s.lines[n].state = .valid ∨ s.lines[n].state = .stale → s.lines[n].tag = some t →
    s.provenSegment t s.lines[n].data
  reading : ∀ u a, s.flash.op = .unitRead u a → u.discarded = false → s.ownerIs .filling .filling u.owner
  hashing : ∀ u, s.engine.hashing = some u ∨ s.engine.waiting = some u → u.discarded = false →
    s.ownerIs .hashing .hashing u.owner
  apart : ∀ u v, s.engine.hashing = some u → s.engine.waiting = some v → u.discarded = false → v.discarded = false →
    u.owner.apart v.owner
  used : ∀ o ∈ s.liveUnits, ∀ k, o.uses = some k → s.slots[k].state = .valid ∧ s.slots[k].tag = o.needs
  held : ∀ k : Fin 8, (s.liveUnits.countP fun o => o.uses == some k) ≤ s.slots[k].hold
  quiet : s.isServing = false → s.liveUnits = []
  free : s.isServing = false → s.manifest.state ≠ .switching →
    (∀ n : Fin 64, s.lines[n].state = .free) ∧ ∀ n : Fin 8, s.slots[n].state = .free

/-! ## Pins, waiters and holds -/

/-- A line holds segment `t` as a proven copy that a pin keeps. -/
def Line.keeps (x : Line) (t : SegTag) : Prop := (x.state = .valid ∨ x.state = .stale) ∧ x.tag = some t

/-- No line is FILLING, HASHING or VALID with segment `t` (R87, R118). -/
def State.absent (s : State) (t : SegTag) : Prop := ∀ n : Fin 64, s.lines[n].state.present = true → s.lines[n].tag ≠ some t

/-- The hold of a READ on segment `t` stands as its kind says: pinned on a line that keeps the segment; waiting on a line that is
being filled with it; or outstanding, with no line that has it; a FAILED segment is waited for by none (R77, R84 to R86). -/
def State.holdStands (s : State) (t : SegTag) : Hold → Prop
  | .pinned n => s.lines[n].keeps t
  | .waiting n => s.lines[n].state.inFlight = true ∧ s.lines[n].tag = some t ∧ s.segState t.image t.segment ≠ .failed
  | .outstanding => s.absent t ∧ s.segState t.image t.segment ≠ .failed

/-- The statuses a READ is decided with when the image grants it nothing (R130). -/
def RespStatus.refuses (x : RespStatus) : Prop := x = .denied ∨ x = .failed ∨ x = .badReq

/-- What a queued READ holds: at most three pieces (R140); each segment once, and only segments of its pieces (R84); while it is
undecided every segment of its pieces, not all pinned; decided OK or SHORT, every one pinned (R130); refused, nothing (R94). -/
structure ReadAgrees (s : State) (status : Option RespStatus) (r : ReadBody) : Prop where
  pieces : r.pieces.length ≤ 3
  once : (r.holds.map (·.segment)).Nodup ∧ ∀ h ∈ r.holds, ∃ x ∈ r.pieces, x.segment = h.segment
  stands : ∀ h ∈ r.holds, ∃ i, r.image = some i ∧ s.holdStands ⟨i, h.segment⟩ h.hold
  undecided : status = none → (∀ x ∈ r.pieces, ∃ h ∈ r.holds, h.segment = x.segment) ∧ ∃ h ∈ r.holds, h.hold.isPinned = false
  decided : ∀ y, status = some y → ((y = .ok ∨ y = .short) ∧ r.image.isSome = true ∧
    ∀ x ∈ r.pieces, ∃ n, ⟨x.segment, .pinned n⟩ ∈ r.holds) ∨ y.refuses ∧ r.holds = []

/-- The pins that the queued READs hold on a line. -/
def State.pinsOn (s : State) (n : Fin 64) : Nat :=
  ((s.portA.queue ++ s.portB.queue).map fun e => e.holds.countP fun h => h.hold == .pinned n).sum

/-- Pins, waiters and holds agree (R71, R83 to R95, R111): what each queued READ holds stands; a line's pin count is the number of
READs pinned on it, and its waiters are those that wait on it; one line at most is being filled with a segment or VALID with it;
a slot's hold is the number of units that will use it. -/
structure PinsAgree (s : State) : Prop where
  ids : ∀ p, ((s.port p).queue.map (·.id)).Nodup ∧ ∀ e ∈ (s.port p).queue, e.id < s.nextEntry
  reads : ∀ p, ∀ e ∈ (s.port p).queue, ∀ r, e.body = .read r → ReadAgrees s e.status r
  listed : ∀ p, ∀ e ∈ (s.port p).queue, ∀ h ∈ e.holds, ∀ n, h.hold = .waiting n →
    ⟨p, e.id, e.piecesIn h.segment⟩ ∈ s.lines[n].waiters
  waiters : ∀ n : Fin 64, (s.lines[n].waiters.map fun w => (w.port, w.entry)).Nodup ∧
    ∀ w ∈ s.lines[n].waiters, ∃ e ∈ (s.port w.port).queue, e.id = w.entry ∧ ∃ h ∈ e.holds, h.hold = .waiting n
  pins : ∀ n : Fin 64, s.lines[n].pins = s.pinsOn n
  single : ∀ m n : Fin 64, s.lines[m].state.present = true → s.lines[n].state.present = true →
    s.lines[m].tag = s.lines[n].tag → m = n
  ahead : ∀ r ∈ s.arbiter.readAhead, s.absent ⟨r.image, r.segment⟩
  tagged : ∀ n : Fin 64, s.lines[n].state = .free ↔ s.lines[n].tag = none
  data : ∀ n : Fin 64, s.lines[n].data.length = 4096
  marks : ∀ n : Fin 64, s.lines[n].streamMark = true → s.lines[n].state = .valid ∧ 0 < s.lines[n].pins
  stale : ∀ n : Fin 64, s.lines[n].state = .stale → 0 < s.lines[n].pins
  lineOrder : s.lineLru.Nodup ∧ ∀ n : Fin 64, n ∈ s.lineLru ↔ s.lines[n].state = .valid
  slotOrder : s.slotLru.Nodup ∧ ∀ k : Fin 8, k ∈ s.slotLru ↔ s.slots[k].state = .valid
  holds : ∀ k : Fin 8, s.slots[k].hold = s.liveUnits.countP fun o => o.uses == some k
  waitPlace : (∀ u a, s.flash.op = .unitRead u a → s.engine.waiting = none) ∧
    (s.engine.hashing = none → s.engine.waiting = none)
  writing : ∀ id, s.flash.op.writing = some id → id < s.nextEntry ∧ ∀ e ∈ s.portA.queue, e.id = id → ∀ r, e.body ≠ .read r
  /-- On Port B only a READ waits undecided: a WRITE or ERASE there is BADREQ at its taking (R129). -/
  portB : ∀ e ∈ s.portB.queue, e.status = none → ∃ r, e.body = .read r

/-- A line after the queue entries `gone` have left or ended, not by a STREAM collection (R86, R94, R95): their pins are released and
they leave its waiter list; a STALE line whose last pin goes becomes FREE, and a VALID one's stream mark is cleared. -/
def Line.released (gone : List (Port × Entry)) (n : Fin 64) (x : Line) : Line :=
  let taken := (gone.map fun g => g.2.holds.countP fun h => h.hold == .pinned n).sum
  let y := { x with waiters := x.waiters.filter fun w =>
    !(gone.any fun g => g.1 == w.port && g.2.id == w.entry && g.2.holds.any fun h => h.hold == .waiting n) }
  if taken = 0 then y
  else if x.state = .stale ∧ x.pins ≤ taken then y.freed
  else { y with pins := x.pins - taken, streamMark := x.streamMark && !(x.state == .valid && decide (x.pins ≤ taken)) }

/-- The LRU order after the same event: a line whose last pin goes while its stream mark is set moves to the least-recent end (in an
order the spec leaves open, log entry 32), a line that becomes FREE leaves, and so do the lines of `left`, which leave VALID at the
event; the others keep their places (R93 to R96). -/
def State.lruReleased (s t : State) (gone : List (Port × Entry)) (left : List (Fin 64)) : Prop :=
  let moved := fun n : Fin 64 =>
    s.lines[n].state == .valid && !left.contains n && s.lines[n].streamMark && !(s.lines[n].released gone n).streamMark
  let freed := fun n : Fin 64 => s.lines[n].state == .stale && (s.lines[n].released gone n).state == .free
  ∃ front : List (Fin 64), front.Nodup ∧ (∀ n, n ∈ front ↔ moved n = true) ∧
    t.lineLru = front ++ s.lineLru.filter fun n => !moved n && !freed n && !left.contains n

/-- The undecided READs of both ports that `q` picks, each with its port. -/
def State.undecidedReads (s : State) (q : Entry → Bool) : List (Port × Entry) :=
  ((s.portA.queue.filter fun e => e.status.isNone && q e).map fun e => (Port.a, e)) ++
    (s.portB.queue.filter fun e => e.status.isNone && q e).map fun e => (Port.b, e)

/-! ## The walk -/

/-- The walk error code of a source (R36). -/
def ManifestUnit.errorOf (m : ManifestUnit) : Source → WalkError
  | .bank .bank0 => m.errorBank0
  | .bank .bank1 => m.errorBank1
  | .recovery => m.errorRecovery

/-- The walk of a candidate has begun: frame 0 stands for its manifest, whose first 256 bytes are asked for (R22, R28). -/
structure WalkBegun (f : FuseImage) (src : Source) (t : State) : Prop where
  state : t.manifest.state = .walking ∧ t.manifest.startStep = none ∧ t.manifest.current = some src
  frame0 : t.manifest.stack = [⟨[], f.regionBase src, src.kind, 0, none, 0⟩]
  read : t.manifest.walkRead = some ⟨f.regionBase src, 256⟩

/-- The part is LOCKED with a cause (R38). -/
structure LockedBy (c : LockedCause) (t : State) : Prop where
  state : t.manifest.state = .locked ∧ t.manifest.lockedCause = some c
  quiet : t.manifest.startStep = none ∧ t.manifest.current = none ∧ t.manifest.stack = [] ∧ t.manifest.walkRead = none ∧
    t.manifest.summary = none

/-- The candidate `src` has ended with error `e` (R36): its code is recorded and no other, the tables are empty, and the next
listed bank, else the recovery manifest, is walked, or the part is LOCKED. -/
structure CandidateEnded (s : State) (f : FuseImage) (src : Source) (e : WalkError) (t : State) : Prop where
  tables : t.images = [] ∧ t.store = [] ∧ t.segMap = []
  codes : ∀ x, t.manifest.errorOf x = if x = src then e else s.manifest.errorOf x
  engine : t.manifest.signatureJob = none
  secondBank : ∀ b bs, s.manifest.candidates = b :: bs → WalkBegun f (.bank b) t ∧ t.manifest.candidates = bs
  recovery : s.manifest.candidates = [] → src ≠ .recovery → 0 < f.recoveryMiB → WalkBegun f .recovery t
  locked : s.manifest.candidates = [] → src = .recovery ∨ f.recoveryMiB = 0 → LockedBy .noManifest t
  rest : t = { s with
    manifest := t.manifest, images := t.images, store := t.store, segMap := t.segMap, flash := t.flash }

/-- What entry processing goes through, with the images and stored block digests that the tables hold and the walk stack, top frame
first: accepted IMAGE entries `ims`, each joining the tables and moving its frame to its next entry, and the popping of frames
whose entries are done, which moves the parent past its CHILD entry (R28, R29, R34). -/
inductive WalkPasses (f : FuseImage) (src : Source) :
    List Image → Nat → List Frame → List (Image × List Digest) → List Frame → Prop
  | here (images : List Image) (stored : Nat) (stack : List Frame) : WalkPasses f src images stored stack [] stack
  | image {images : List Image} {stored : Nat} {top : Frame} {rest stack : List Frame} {im : Image} {ds : List Digest}
      {ims : List (Image × List Digest)} : top.next < byteAt top.buffer 6 →
      classifyEntry top.buffer (entryOffset top.buffer top.next) top.kind = some true →
      judgeImage f src images stored ((top :: rest).reverse.filterMap (·.condition)) top.buffer
        (entryOffset top.buffer top.next) = .accepted im ds →
      WalkPasses f src (images ++ [im]) (stored + ds.length) ({ top with next := top.next + 1 } :: rest) ims stack →
      WalkPasses f src images stored (top :: rest) ((im, ds) :: ims) stack
  | pop {images : List Image} {stored : Nat} {top parent : Frame} {below stack : List Frame}
      {ims : List (Image × List Digest)} : byteAt top.buffer 6 ≤ top.next →
      WalkPasses f src images stored ({ parent with next := parent.next + 1 } :: below) ims stack →
      WalkPasses f src images stored (top :: parent :: below) ims stack

/-- The walk of the candidate `src` completes with frame 0's manifest `b`, the images `ims` having joined the tables: every flag is
set against the option word, the code becomes NONE, the settings go to their blocks, the source is in force, WALK_DONE is raised,
and ports and permit are judged (R3, R34, R37, R46, R49, R149, R161, R162). -/
structure WalkCompletes (s : State) (src : Source) (b : Bytes) (ims : List (Image × List Digest)) (t : State) : Prop where
  images : t.images = (s.images ++ ims.map (·.1)).map fun x =>
    { x with included := x.conditions.all fun c => s.options.word.getLsbD c.bit.val == (c.sense == .set) }
  store : t.store = s.store ++ ims.flatMap fun x => x.2.zipIdx.map fun d => ⟨x.1.index, d.2, d.1, .good⟩
  segments : t.segMap = s.segMap ++ ims.map fun x => List.replicate x.1.segments .unverified
  verifier : t.manifest = { s.manifest with
    state := (match src with | .bank _ => .serving | .recovery => .recoveryServing)
    current := none, candidates := [], stack := [], signatureJob := none
    summary := some ⟨src, match src with | .bank _ => some ⟨byteAt b 10, byteAt b 5⟩ | .recovery => none⟩
    errorBank0 := t.manifest.errorBank0, errorBank1 := t.manifest.errorBank1, errorRecovery := t.manifest.errorRecovery }
  codes : ∀ x, t.manifest.errorOf x = if x = src then .none else s.manifest.errorOf x
  options : t.options = { s.options with debounce := byteAt b 11 }
  rescan : t.rescan = { s.rescan with interval := some (le16 b 12), running := decide (0 < le16 b 12) }
  sweep : t.arbiter = { s.arbiter with sweepImage := 0, sweepSegment := 0 }
  raised : t.service.flag .walkDone = true
  permit : PermitFollows
    { s.permit with delays := some ⟨⟨le16 b 14, le16 b 16, le16 b 18⟩, ⟨le16 b 20, le16 b 22, le16 b 24⟩⟩ }
    (s.service.setFlag .walkDone) t
  ports : ∀ p, PortJudged s p t ∧ t.port p = { s.port p with state := (t.port p).state }
  rest : t = { s with
    images := t.images, store := t.store, segMap := t.segMap, manifest := t.manifest, options := t.options, permit := t.permit
    rescan := t.rescan, arbiter := t.arbiter, service := t.service, portA := t.portA, portB := t.portB }

/-- The slot that must sign a manifest vouches for its public key: the slot is named, programmed, and holds the key's digest, and
a CHILD's is in the mask that led to it (R7, R25). -/
def KeyVouched (f : FuseImage) (kind : ManifestKind) (mask : Byte) (b : Bytes) : Prop :=
  match kind with
  | .recovery => f.recovery.programmed = true ∧ f.recovery.keyDigest = sha256 (slice b 64 64)
  | .root => ∃ k : Fin 4, byteAt b 5 = k ∧ f.primary[k].programmed = true ∧ f.primary[k].keyDigest = sha256 (slice b 64 64)
  | .child => ∃ k : Fin 4, byteAt b 5 = k ∧ mask.getLsbD k = true ∧ f.primary[k].programmed = true ∧
      f.primary[k].keyDigest = sha256 (slice b 64 64)

/-- The slot that a ROOT or CHILD manifest names reads revoked (R7, R25). -/
def KeyRevoked (f : FuseImage) (kind : ManifestKind) (b : Bytes) : Prop :=
  kind ≠ .recovery ∧ ∃ k : Fin 4, byteAt b 5 = k ∧ f.revoked[k] = true

/-! ## Frames -/

/-- The port takes the frame `f`: it runs and is live, or CS_N is high on a RELEASED port and the command stands for the whole
frame (R125, R126, R131, R150; log entry 6). -/
def State.takesFrame (s : State) (p : Port) (f : SpiFrame) : Prop :=
  f.live = true ∧ ((s.port p).frame = some f ∨
    (s.port p).frame = none ∧ s.live = true ∧ (s.port p).state = .released ∧
      f = ⟨true, s.statusByte p, (s.port p).readyHead, false, none⟩)

/-- The commands that are the end of a frame on a port (R125). -/
def endsFrame (p : Port) : Instr → Prop
  | .read q _ _ _ _ => q = p
  | .translate q _ _ => q = p
  | .write q _ _ _ => q = p
  | .erase q _ _ => q = p
  | .collect q _ => q = p
  | .status q => q = p
  | .reboot q => q = p
  | .permitOn q => q = p
  | .permitOff q => q = p
  | .malformedFrame q received => q = p ∧ parseFrame (wholeBytes received) = none
  | _ => False

/-- The image whose window holds an address on a port: the port sees it and its span holds the address, and no image before it
does (R138). -/
def State.windowHolds (s : State) (p : Port) (x : Nat) (i : Nat) (im : Image) : Prop :=
  s.images[i]? = some im ∧ im.owner.sees p = true ∧ im.windowBase ≤ x ∧ x < im.windowBase + im.windowSpan ∧
    ∀ j im', j < i → s.images[j]? = some im' → im'.owner.sees p = true →
      x < im'.windowBase ∨ im'.windowBase + im'.windowSpan ≤ x

/-! ## Image failure -/

/-- What the change of the image `im` to FAILED by `c` does besides ending requests (R45, R78, R170, R171): the image fails with
`c` in its record, IMAGE_FAILED is raised, and the permit trips unless a trip is latched. -/
structure ImageFails (s : State) (c : TripCause) (im : Image) (t : State) : Prop where
  record : ∃ x, t.images[c.image]? = some x ∧ x.state = .failed ∧ x.included = im.included ∧ x.segments = im.segments ∧
    x.failure = some (match c.kind with | .block => .block c.index | _ => .segment c.index)
  others : ∀ j : Nat, j ≠ c.image → t.images[j]? = s.images[j]?
  raised : t.service.flag .imageFailed = true
  tripped : s.permit.cause = none → t.permit.state = .tripped ∧ t.permit.cause = some c ∧ t.permit.timer = none ∧
    t.service.flag .permitChange = true ∧ ∀ f, s.fuseImage = some f → ∀ l, t.permit.lines.get l =
      (match f.tripAction.get l with | .inactive => .inactive | .float => .released)
  latched : s.permit.cause ≠ none → t.permit = s.permit

/-- The image failure does not switch the verifier: it is not SERVING, or auto-recovery is off or has no region (R39). -/
def State.staysPut (s : State) : Prop :=
  ∀ f, s.fuseImage = some f → s.manifest.state ≠ .serving ∨ f.autoRecovery = false ∨ f.recoveryMiB = 0

/-- A live frame that runs on a port when the port leaves RELEASED is cut short: it drives nothing more, nothing is bound to it, and
what a COLLECT was being sent, NONE's header or the bound response, is kept for the bytes already driven (R132, R150). -/
def FrameCut (s : State) (p : Port) (t : State) : Prop :=
  ∀ f, (s.port p).frame = some f → f.live = true →
    ∃ k b, (t.port p).frame = some ⟨false, f.status, none, false, some (k, b)⟩ ∧
      (f.bound = none → b = [0x00, 0x0F, 0x00, 0x00]) ∧
      ∀ e es x, (s.port p).queue = e :: es → e.status = some x → f.bound = some e.id → b = s.response e x

/-- What entry to SWITCHING leaves (R40, R41, R124, R147). -/
structure Switched (s t : State) : Prop where
  verifier : t.manifest = { s.manifest with state := .switching, summary := none, errorRecovery := .notTried }
  ports : ∀ p, (t.port p).state = .held ∧ (t.port p).queue = [] ∧ (t.port p).holdServed = false ∧
    (t.port p).frameLive = false ∧ (t.port p).overrun = (s.port p).overrun ∧ (t.port p).dropped = (s.port p).dropped ∧
    (t.port p).badFrame = (s.port p).badFrame
  request : t.permitRequest = false
  readAhead : t.arbiter = { s.arbiter with readAhead := [] }
  timer : t.rescan.running = false ∧ t.rescan.debt = s.rescan.debt ∧ t.rescan.passCount = s.rescan.passCount
  discarded : t.liveUnits = []
  holds : ∀ k : Fin 8, t.slots[k].hold = 0
  frames : ∀ p, FrameCut s p t
  fuses : t.fuseImage = s.fuseImage ∧ t.fuseArray = s.fuseArray ∧ t.fuseController = s.fuseController

/-! ## Entry to STARTING -/

/-- What power-on and RESET_N leave of every block at entry to STARTING, with the straps as sampled (R5, R17, R18, R50, R81,
R100, R109, R124, R147, R174, R188, R201). -/
structure ColdStarted (straps : BitVec 2) (t : State) : Prop where
  runs : t.live = true
  fuses : t.fuseImage = none ∧ t.fuseController = .idle
  verifier : t.manifest.state = .starting ∧ t.manifest.startStep = some .flashWait ∧ t.manifest.lockedCause = none ∧
    t.manifest.summary = none ∧ t.manifest.stack = []
  codes : t.manifest.errorBank0 = .notTried ∧ t.manifest.errorBank1 = .notTried ∧ t.manifest.errorRecovery = .notTried
  tables : t.images = [] ∧ t.store = [] ∧ t.segMap = []
  slots : ∀ n : Fin 8, t.slots[n].state = .free ∧ t.slots[n].hold = 0
  lines : ∀ n : Fin 64, t.lines[n].state = .free ∧ t.lines[n].pins = 0 ∧ t.lines[n].waiters = []
  orders : t.slotLru = [] ∧ t.lineLru = []
  engine : t.engine.hashing = none ∧ t.engine.waiting = none
  flash : t.flash.op = .readyWait
  arbiter : t.arbiter.turn = .a ∧ t.arbiter.readAhead = [] ∧ t.arbiter.sweepImage = 0 ∧ t.arbiter.sweepSegment = 0
  ports : ∀ p, (t.port p).state = .held ∧ (t.port p).queue = [] ∧ (t.port p).holdServed = false ∧
    (t.port p).overrun = false ∧ (t.port p).dropped = false ∧ (t.port p).badFrame = false
  request : t.permitRequest = false
  options : t.options.debounce = 16 ∧ t.options.eventMask = 0 ∧ t.options.sampled = false ∧
    ∀ k : Fin 8, t.options.counters[k] = 0
  permit : t.permit.state = .withheld ∧ t.permit.cause = none ∧ t.permit.timer = none ∧
    ∀ l, t.permit.lines.get l = .released
  rescan : t.rescan.interval = none ∧ t.rescan.running = false ∧ t.rescan.debt = 0 ∧ t.rescan.cursorImage = 0 ∧
    t.rescan.cursorSegment = 0 ∧ t.rescan.passCount = 0 ∧ t.rescan.buffer = .empty
  pointer : t.service.straps = straps ∧ t.service.pointer = 0 ∧ t.service.autoIncrement = false ∧ t.service.select = 0
  events : t.service.flags = 0 ∧ t.service.mask = 0 ∧ (∀ e, t.service.period e = 1) ∧ ∀ e, t.service.counter e = 0
  commands : t.service.argument = 0 ∧ t.service.code = 0 ∧ t.service.result = .noResult ∧ t.service.ignored = false ∧
    t.service.pendingRestart = false

/-- A run of the part from `s`: `k` steps, each of which answers a next state (the spec gives no stop). -/
def Runs (k : Nat) (s t : State) : Prop := Sys2Proof.core.run k s = .next t

end Sys2Proof.Machine
end

