-- ==== Sys2Proof/Certificates/Slice0/Obligations.lean ====
section
/-! DEFINITION. Certificates/Slice0/Obligations.lean: the statements for the provers. -/

open Sys2Proof Sys2Proof.Machine

/-! ## The queue and the step -/

/-- One step takes the command at the front of the queue and answers what `exec` makes of it on the state with the rest of the
queue; on an empty queue the block idles (the model's choice, log entry 8). -/
def Obligations.StepRunsFrontCommand : Prop :=
  ∀ s : State, (s.pending = [] → step s = .next s) ∧
    ∀ c cs, s.pending = c :: cs → step s = exec c { s with pending := cs }

/-- Every command answers a next state and leaves the queue as it is (95_what_each_step_holds.md: each step is whole and
indivisible; that the spec gives no stop is log entry 2). -/
def Obligations.EveryCommandAnswers : Prop :=
  ∀ (c : Instr) (s : State), ∃ t, exec c s = .next t ∧ t.pending = s.pending

/-! ## Power, RESET_N and STARTING -/

/-- POWER_ON with RESET_N high, and RESET_N_RELEASE with the supplies good, enter STARTING with every block as the rows Power-on
and RESET_N leave it; the fuse array stands unless a burn is cut off (R17, R50, R100, R124, R174, R188, R201). -/
def Obligations.PowerOnAndReleaseEnterStarting : Prop :=
  ∀ (straps : BitVec 2) (s : State),
    (s.supplies = false → s.resetN = true → ∃ t, exec (.powerOn straps) s = .next t ∧ ColdStarted straps t ∧
      (s.fuseController = .idle → t.fuseArray = s.fuseArray)) ∧
    (s.supplies = true → s.resetN = false → ∃ t, exec (.resetNRelease straps) s = .next t ∧ ColdStarted straps t ∧
      (s.fuseController = .idle → t.fuseArray = s.fuseArray))

/-- POWER_LOSS and RESET_N_ASSERT stop every block at once: no burn, flash operation, hash unit or pending restart is left, no
result and no flag is set, SVC_INT_N and the permit lines are released, both master reset lines asserted, and a frame that
runs is cut short (R9, R16, R17, R108, R147, R150, R197; while the supplies are not good the master reset lines' level is
the model's choice, log entry 33, and so are the permit lines' drive and the ready lines' level, log entry 35; so is what of
a cut frame had been driven, log entry 34). A floor or revoke fuse whose burn is cut off, and which no good burn has
settled, is left to a free reading; every other fuse stands (R6, R10, R16; the free reading is log entry 1). -/
def Obligations.PowerLossStopsAndCutsTheBurn : Prop :=
  (∀ (c : Instr) (s : State), c = .powerLoss ∨ c = .resetNAssert → s.supplies = true → s.resetN = true →
     ∃ t, exec c s = .next t ∧ t.live = false ∧ t.fuseController = .idle ∧ t.fuseImage = none ∧ t.flash.op = .idle ∧
       t.engine.hashing = none ∧ t.engine.waiting = none ∧ t.service.pendingRestart = false ∧
       t.service.result = .noResult ∧ t.service.flags = 0 ∧ t.svcIntLow = false ∧
       (∀ l, t.permit.lines.get l = .released) ∧
       ∀ p, t.resetReleased p = false ∧ t.readyLine p = false ∧ (t.port p).frameLive = false ∧ FrameCut s p t) ∧
  (∀ (c : Instr) (s : State), c = .powerLoss ∨ c = .resetNAssert → s.supplies = true → s.resetN = true →
     (∀ k target, s.fuseController = .burningFloor k target → s.fuseArray.floor[k] ≠ .burned →
       ∃ t, exec c s = .next t ∧ t.fuseArray.floor[k] = .unsettled s.nextFree ∧
         (∀ j : Fin 32, j ≠ k → t.fuseArray.floor[j] = s.fuseArray.floor[j]) ∧
         t.fuseArray.revoke = s.fuseArray.revoke) ∧
     ∀ k, s.fuseController = .burningRevoke k → s.fuseArray.revoke[k] ≠ .burned →
       ∃ t, exec c s = .next t ∧ t.fuseArray.revoke[k] = .unsettled s.nextFree ∧
         (∀ j : Fin 4, j ≠ k → t.fuseArray.revoke[j] = s.fuseArray.revoke[j]) ∧
         t.fuseArray.floor = s.fuseArray.floor)

/-- The flash-ready wait: a busy poll is followed by another, a ready poll by the fuse load, and the limit's expiry by the flash
reset sequence of reset enable and reset; its settle time's expiry ends the sequence in IDLE and goes on with what it held
back (R18, R102, R103, R108; 12_formats.md, Flash operations). -/
def Obligations.FlashReadyWaitEnds : Prop :=
  ∀ (status : Byte) (s : State), s.live = true →
    (s.flash.op = .readyWait → status.getLsbD 0 = true → exec (.flashReadyPollDone status) s =
      .next { s with flash := ⟨.readyWait, [⟨0x05, [], 0, .fio1, []⟩]⟩ }) ∧
    (s.flash.op = .readyWait → status.getLsbD 0 = false → exec (.flashReadyPollDone status) s =
      .next { s with flash := { s.flash with op := .idle }, manifest := { s.manifest with startStep := some .fuseLoad } }) ∧
    (s.flash.op = .readyWait → exec .flashReadyLimitExpiry s =
      .next { s with flash := ⟨.resetting .fuseLoad, [⟨0x66, [], 0, .none, []⟩, ⟨0x99, [], 0, .none, []⟩]⟩ }) ∧
    (s.flash.op = .resetting .fuseLoad → exec .flashResetSettleExpiry s =
      .next { s with flash := { s.flash with op := .idle }, manifest := { s.manifest with startStep := some .fuseLoad } }) ∧
    (s.flash.op = .resetting .readyWait → exec .flashResetSettleExpiry s =
      .next { s with flash := ⟨.readyWait, [⟨0x05, [], 0, .fio1, []⟩]⟩ }) ∧
    (s.flash.op = .resetting .idle → exec .flashResetSettleExpiry s =
      .next { s with flash := { s.flash with op := .idle } })

/-- FUSE_LOAD_DONE fills the fuse image from every field of the array, an unsettled fuse with its free reading, drives the
permit lines inactive in WITHHELD and begins the self-check; nothing else changes (R4, R5, R6, R9, R19). The flash map: the
two banks and the recovery region, whole numbers of segments, follow each other from address 0 to F, and each address below
F lies in exactly one of them, an address at or above F in none (R1, R2). -/
def Obligations.FuseLoadSetsImageAndFlashMap : Prop :=
  (∀ s : State, s.live = true → s.manifest.startStep = some .fuseLoad →
     ∃ (t : State) (f : FuseImage), exec .fuseLoadDone s = .next t ∧
       f.primary = s.fuseArray.primary ∧ f.recovery = s.fuseArray.recovery ∧
       (∀ k : Fin 4, f.revoked[k] = s.fuseArray.revoke[k].reads) ∧
       (∀ k : Fin 32, f.floor[k] = s.fuseArray.floor[k].reads) ∧
       f.flashMiB = (if s.fuseArray.sizeSecond = true then 64 else if s.fuseArray.sizeFirst = true then 32 else 16) ∧
       f.recoveryMiB = s.fuseArray.recoverySize.toList.count true ∧ f.autoRecovery = s.fuseArray.autoRecovery ∧
       f.lineLevel = s.fuseArray.lineLevel ∧ f.tripAction = s.fuseArray.tripAction ∧
       t = { s with
         fuseImage := some f
         permit := { s.permit with
           state := .withheld, lines := ⟨.inactive, .inactive, .inactive⟩, timer := none, cause := none }
         manifest := { s.manifest with startStep := some (.selfCheck false 0) } }) ∧
  (∀ f : FuseImage, f.flashMiB = 16 ∨ f.flashMiB = 32 ∨ f.flashMiB = 64 → f.recoveryMiB ≤ 8 →
     f.bankBytes = (f.flashMiB * 1048576 - f.recoveryMiB * 1048576) / 2 ∧ f.bankBytes % 4096 = 0 ∧
     f.regionBase (.bank .bank0) = 0 ∧ f.regionBase (.bank .bank1) = f.bankBytes ∧
     f.regionBase .recovery = f.bankBytes + f.bankBytes ∧ f.regionBase .recovery + f.recoveryBytes = f.flashBytes ∧
     ∀ a, (f.flashBytes ≤ a → f.regionOf a = none) ∧
       (a < f.flashBytes → ∃ src, f.regionOf a = some src) ∧
       ∀ src, f.regionOf a = some src ↔ f.regionBase src ≤ a ∧ a < f.regionBase src + f.regionBytes src)

/-- SELF_CHECK_JOB_DONE: a wrong result locks the part with SELFTEST and no header read; a good one is counted, and the last one
asks for the 256 bytes at bank 0's base (R19, R20, R38; that the part locks at the first wrong result, and that the jobs may
complete in any order, is log entry 9). -/
def Obligations.SelfCheckLocksOrGoesOn : Prop :=
  ∀ (s : State) (f : FuseImage) (d : Bool) (n : Nat), s.live = true → s.fuseImage = some f →
    s.manifest.startStep = some (.selfCheck d n) →
    (∀ e : Engine, (e = .digest → d = false) → (e = .signature → n < 2) →
      ∃ t, exec (.selfCheckJobDone e false) s = .next t ∧ t.manifest.state = .locked ∧
        t.manifest.lockedCause = some .selftest ∧ t.manifest.walkRead = none ∧ t.manifest.summary = none ∧
        t.manifest.errorBank0 = s.manifest.errorBank0 ∧ t.manifest.errorBank1 = s.manifest.errorBank1 ∧
        t.manifest.errorRecovery = s.manifest.errorRecovery ∧ t = { s with manifest := t.manifest }) ∧
    (d = false → n < 2 → exec (.selfCheckJobDone .digest true) s =
      .next { s with manifest := { s.manifest with startStep := some (.selfCheck true n) } }) ∧
    (n = 0 → exec (.selfCheckJobDone .signature true) s =
      .next { s with manifest := { s.manifest with startStep := some (.selfCheck d 1) } }) ∧
    (d = false → n = 1 → exec (.selfCheckJobDone .signature true) s =
      .next { s with manifest := { s.manifest with startStep := some (.selfCheck false 2) } }) ∧
    (d = false → n = 2 → exec (.selfCheckJobDone .digest true) s = .next { s with manifest :=
      { s.manifest with startStep := some (.headers .bank0), walkRead := some ⟨0, 256⟩ } }) ∧
    (d = true → n = 1 → exec (.selfCheckJobDone .signature true) s = .next { s with manifest :=
      { s.manifest with startStep := some (.headers .bank0), walkRead := some ⟨0, 256⟩ } })

/-- HEADER_READ_DONE of bank 0: NO_MARKER without the marker 43 4A 4D 46, BAD_KIND with another kind than ROOT, and otherwise
the level byte is kept and the code stands; then bank 1's header is asked for (R20; 12_formats.md, Manifest header).
HEADER_READ_DONE of bank 1 judges its marker and kind in the same way and forms the candidate list: higher header level
first, bank 0 first among equals; with no candidate bank the recovery manifest is walked, or the part locks with NO_MANIFEST
(R20, R21). -/
def Obligations.HeadersAreJudgedAndOrdered : Prop :=
  (∀ (s : State) (f : FuseImage) (data : Bytes) (r : WalkRead), s.live = true → s.fuseImage = some f →
     s.manifest.startStep = some (.headers .bank0) → s.flash.op = .walkRead r → r.length = data.length →
     ∃ t, exec (.headerReadDone data) s = .next t ∧ t.flash.op = .idle ∧
       t.manifest.startStep = some (.headers .bank1) ∧ t.manifest.walkRead = some ⟨f.bankBytes, 256⟩ ∧
       (slice data 0 4 ≠ [0x43, 0x4A, 0x4D, 0x46] →
         t.manifest.errorBank0 = .noMarker ∧ t.manifest.levelBank0 = s.manifest.levelBank0) ∧
       (slice data 0 4 = [0x43, 0x4A, 0x4D, 0x46] → data.getD 4 0 ≠ 0x01 →
         t.manifest.errorBank0 = .badKind ∧ t.manifest.levelBank0 = s.manifest.levelBank0) ∧
       (slice data 0 4 = [0x43, 0x4A, 0x4D, 0x46] → data.getD 4 0 = 0x01 →
         t.manifest.errorBank0 = s.manifest.errorBank0 ∧
         t.manifest.levelBank0 = some (data.getD 10 0).toNat) ∧
       t = { s with flash := { s.flash with op := .idle }, manifest := { s.manifest with
         startStep := t.manifest.startStep, walkRead := t.manifest.walkRead, errorBank0 := t.manifest.errorBank0,
         levelBank0 := t.manifest.levelBank0 } }) ∧
  (∀ (s : State) (f : FuseImage) (data : Bytes) (r : WalkRead), s.live = true → s.fuseImage = some f →
     s.manifest.startStep = some (.headers .bank1) → s.flash.op = .walkRead r → r.length = data.length →
     s.manifest.levelBank1 = none →
     ∃ t, exec (.headerReadDone data) s = .next t ∧
       t.manifest.errorBank0 = s.manifest.errorBank0 ∧ t.manifest.errorRecovery = s.manifest.errorRecovery ∧
       (slice data 0 4 ≠ [0x43, 0x4A, 0x4D, 0x46] → t.manifest.errorBank1 = .noMarker ∧ t.manifest.levelBank1 = none) ∧
       (slice data 0 4 = [0x43, 0x4A, 0x4D, 0x46] → data.getD 4 0 ≠ 0x01 →
         t.manifest.errorBank1 = .badKind ∧ t.manifest.levelBank1 = none) ∧
       (slice data 0 4 = [0x43, 0x4A, 0x4D, 0x46] ∧ data.getD 4 0 = 0x01 →
         t.manifest.errorBank1 = s.manifest.errorBank1 ∧ t.manifest.levelBank1 = some (data.getD 10 0).toNat ∧
         (∀ x, s.manifest.levelBank0 = some x → x < (data.getD 10 0).toNat →
           t.manifest.current = some (.bank .bank1) ∧ t.manifest.candidates = [.bank0]) ∧
         (∀ x, s.manifest.levelBank0 = some x → (data.getD 10 0).toNat ≤ x →
           t.manifest.current = some (.bank .bank0) ∧ t.manifest.candidates = [.bank1]) ∧
         (s.manifest.levelBank0 = none → t.manifest.current = some (.bank .bank1) ∧ t.manifest.candidates = [])) ∧
       (¬ (slice data 0 4 = [0x43, 0x4A, 0x4D, 0x46] ∧ data.getD 4 0 = 0x01) →
         (∀ x, s.manifest.levelBank0 = some x →
           t.manifest.current = some (.bank .bank0) ∧ t.manifest.candidates = []) ∧
         (s.manifest.levelBank0 = none → 0 < f.recoveryMiB → t.manifest.current = some .recovery) ∧
         (s.manifest.levelBank0 = none → f.recoveryMiB = 0 →
           t.manifest.state = .locked ∧ t.manifest.lockedCause = some .noManifest)) ∧
       (t.manifest.state = .locked ∨ t.manifest.state = .walking ∧ t.manifest.startStep = none ∧
         ∃ src, t.manifest.current = some src ∧ t.manifest.walkRead = some ⟨f.regionBase src, 256⟩) ∧
       t = { s with flash := { s.flash with op := .idle }, manifest := t.manifest })

/-! ## The walk -/

/-- MANIFEST_READ_DONE of a manifest's first part: a wrong marker ends the candidate NO_MARKER, another kind than its place
calls for BAD_KIND, a total length or entry count out of range BAD_LENGTH, and a child that leaves its region OUT_OF_REGION
(R22, R23, R24, R36). MANIFEST_READ_DONE of a part that passes: the bytes join the buffer; while the manifest is not whole
the next part, at most 4,096 bytes, is asked for; once it is, a key that no slot vouches for ends the candidate
KEY_MISMATCH, a revoked slot KEY_REVOKED, and otherwise the signature job starts on every byte up to the total length but
the signature field, with key and signature from the buffer (R7, R22, R25, R26, R36; that key and revocation are judged only
once the manifest is whole is the model's DEDUCED choice, log entry 18). -/
def Obligations.ManifestPartsAreJudged : Prop :=
  (∀ (s : State) (f : FuseImage) (src : Source) (top : Frame) (rest : List Frame) (data : Bytes) (r : WalkRead),
     s.live = true → s.manifest.state = .walking → s.fuseImage = some f → s.manifest.current = some src →
     s.manifest.stack = top :: rest → top.buffer = [] → s.flash.op = .walkRead r → r.length = data.length →
     ∃ t, exec (.manifestReadDone data) s = .next t ∧ t.flash = { s.flash with op := .idle } ∧
       (slice data 0 4 ≠ [0x43, 0x4A, 0x4D, 0x46] → CandidateEnded s f src .noMarker t) ∧
       (slice data 0 4 = [0x43, 0x4A, 0x4D, 0x46] →
         (byteAt data 4 ≠ top.kind.code →
           CandidateEnded s f src .badKind t) ∧
         (byteAt data 4 = top.kind.code →
           (le16 data 8 < 256 ∨ 8192 < le16 data 8 ∨ byteAt data 6 < 1 ∨ 16 < byteAt data 6 →
             CandidateEnded s f src .badLength t) ∧
           (256 ≤ le16 data 8 → le16 data 8 ≤ 8192 → 1 ≤ byteAt data 6 → byteAt data 6 ≤ 16 → top.kind = .child →
             f.regionBase src + f.regionBytes src < top.location + le16 data 8 → CandidateEnded s f src .outOfRegion t)))) ∧
  (∀ (s : State) (f : FuseImage) (src : Source) (top : Frame) (rest : List Frame) (data b : Bytes) (r : WalkRead),
     s.live = true → s.manifest.state = .walking → s.fuseImage = some f → s.manifest.current = some src →
     s.manifest.stack = top :: rest → s.flash.op = .walkRead r → r.length = data.length → b = top.buffer ++ data →
     (top.buffer = [] → slice b 0 4 = [0x43, 0x4A, 0x4D, 0x46] ∧
       byteAt b 4 = top.kind.code ∧
       256 ≤ le16 b 8 ∧ le16 b 8 ≤ 8192 ∧ 1 ≤ byteAt b 6 ∧ byteAt b 6 ≤ 16 ∧
       (top.kind = .child → top.location + le16 b 8 ≤ f.regionBase src + f.regionBytes src)) →
     ∃ t, exec (.manifestReadDone data) s = .next t ∧
       (b.length < le16 b 8 → t = { s with
         flash := { s.flash with op := .idle }
         manifest := { s.manifest with
           stack := { top with buffer := b } :: rest
           walkRead := some ⟨top.location + b.length, min 4096 (le16 b 8 - b.length)⟩ } }) ∧
       (le16 b 8 ≤ b.length →
         (¬ KeyVouched f top.kind top.keyMask b →
           CandidateEnded s f src .keyMismatch t ∧ t.flash = { s.flash with op := .idle }) ∧
         (KeyVouched f top.kind top.keyMask b → KeyRevoked f top.kind b →
           CandidateEnded s f src .keyRevoked t ∧ t.flash = { s.flash with op := .idle }) ∧
         (KeyVouched f top.kind top.keyMask b → ¬ KeyRevoked f top.kind b → t = { s with
           flash := { s.flash with op := .idle }
           manifest := { s.manifest with
             stack := { top with buffer := b } :: rest, walkRead := none
             signatureJob := some ⟨slice b 0 128 ++ slice b 192 (le16 b 8 - 192), slice b 64 64, slice b 128 64⟩ } })))

/-- SIGNATURE_DONE brings the verdict that the job's bytes, key and signature decide; the other verdict cannot come and leaves
the part as it is (the model's choice, log entries 5 and 31). A fail ends the candidate BAD_SIGNATURE; after a pass a ROOT
level below the floor ends it BELOW_FLOOR, and a ROOT level above 32, a debounce count of 0 or a delay above 1,023 BAD_ENTRY
(R8, R26, R27, R36). -/
def Obligations.SignatureAndSettingsEndTheCandidate : Prop :=
  ∀ (s : State) (f : FuseImage) (src : Source) (top : Frame) (rest : List Frame) (b : Bytes) (j : SignatureJob),
    s.live = true → s.manifest.state = .walking → s.manifest.signatureJob = some j → s.fuseImage = some f →
    s.manifest.current = some src → s.manifest.stack = top :: rest → b = top.buffer →
    (j.passes = true → exec (.signatureDone false) s = .next s) ∧
    (j.passes = false → exec (.signatureDone true) s = .next s ∧
      ∃ t, exec (.signatureDone false) s = .next t ∧ t.flash = s.flash ∧ CandidateEnded s f src .badSignature t) ∧
    (j.passes = true → ∃ t, exec (.signatureDone true) s = .next t ∧ t.flash = s.flash ∧
      (top.kind = .root → byteAt b 10 < f.floor.toList.count true → CandidateEnded s f src .belowFloor t) ∧
      (top.kind = .root → f.floor.toList.count true ≤ byteAt b 10 →
        (32 < byteAt b 10 ∨ byteAt b 11 = 0 ∨ ∃ k ∈ [14, 16, 18, 20, 22, 24], 1023 < le16 b k) →
        CandidateEnded s f src .badEntry t) ∧
      (top.kind = .recovery → (byteAt b 11 = 0 ∨ ∃ k ∈ [14, 16, 18, 20, 22, 24], 1023 < le16 b k) →
        CandidateEnded s f src .badEntry t))

/-- The tests themselves, in bytes: an entry must end at or before the total length, be of kind 1 or 2, have the length its
fields call for, and no RECOVERY manifest has a CHILD entry; a CHILD entry's condition and its offset, a multiple of 4,096,
are tested first, then the depth of three frames, then that its first 256 bytes lie in the region, and the frame it pushes
takes its place, condition and key mask (R22, R28, R29, R35, R204; 12_formats.md, Entries). SIGNATURE_DONE of a manifest
that passes every check begins with its first entry: an ill-formed entry ends the candidate BAD_ENTRY, a refused IMAGE or
CHILD entry with its error, and a good CHILD entry pushes the child's frame and asks for its first 256 bytes (R27, R28, R29,
R35, R36). SIGNATURE_DONE goes through the entries: IMAGE entries that pass join the tables one by one, each judged against
the tables as the ones before it left them, and a frame whose entries are done is popped, which moves its parent past its
CHILD entry. Wherever that leads, the next entry, at the running sum of the entry lengths from 256, ends the candidate with
its error, or pushes a child and asks for its first 256 bytes; and when frame 0 has no entry left the walk completes: every
flag is set against the option word, the code becomes NONE, the settings go to their blocks, the source is in force,
WALK_DONE is raised, and ports and permit are judged (R3, R28, R29, R34, R35, R36, R37, R46, R49, R161). -/
def Obligations.EntriesDecideTheWalk : Prop :=
  (∀ (f : FuseImage) (src : Source) (depth : Nat) (b : Bytes) (o : Nat) (kind : ManifestKind),
     let flagged := (b.getD (o + 1) 0).getLsbD 0
     let length := le16 b (o + 2)
     let fits := o + length ≤ le16 b 8
     let image := byteAt b o = 1 ∧ length = 32 + (if byteAt b (o + 13) = 2 then 4 else 0) + (if flagged = true then 4 else 0) +
       32 * ((le16 b (o + 16) + 127) / 128)
     let child := byteAt b o = 2 ∧ length = (if flagged = true then 16 else 12) ∧ kind ≠ .recovery
     let fields := (flagged = true → byteAt b (o + 12) ≤ 7 ∧ (byteAt b (o + 13) = 1 ∨ byteAt b (o + 13) = 2)) ∧
       le32 b (o + 4) % 4096 = 0
     let judged := judgeChild f src depth b o
     (classifyEntry b o kind = some true ↔ fits ∧ image) ∧ (classifyEntry b o kind = some false ↔ fits ∧ child) ∧
     (¬ fields → judged = .refused .badEntry) ∧
     (fields → 3 ≤ depth → judged = .refused .tooDeep) ∧
     (fields → depth < 3 → f.regionBytes src < le32 b (o + 4) + 256 → judged = .refused .outOfRegion) ∧
     (fields → depth < 3 → le32 b (o + 4) + 256 ≤ f.regionBytes src → ∃ own, judged =
         .pushed ⟨[], f.regionBase src + le32 b (o + 4), .child, 0, own, b.getD (o + 8) 0⟩ ∧
       (flagged = false → own = none) ∧
       (flagged = true → ∃ c : Condition, own = some c ∧ c.bit.val = byteAt b (o + 12) ∧
         (c.sense = .set ↔ byteAt b (o + 13) = 1)))) ∧
  (∀ (s : State) (f : FuseImage) (src : Source) (top : Frame) (rest : List Frame) (j : SignatureJob),
     s.live = true → s.manifest.state = .walking → s.manifest.signatureJob = some j → j.passes = true →
     s.fuseImage = some f → s.manifest.current = some src → s.manifest.stack = top :: rest →
     checkSettings f top.kind top.buffer = .none → 1 ≤ byteAt top.buffer 6 →
     ∃ t, exec (.signatureDone true) s = .next t ∧
       (classifyEntry top.buffer 256 top.kind = none → CandidateEnded s f src .badEntry t ∧ t.flash = s.flash) ∧
       (∀ e, classifyEntry top.buffer 256 top.kind = some true →
         judgeImage f src s.images s.store.length ((top :: rest).reverse.filterMap (·.condition)) top.buffer 256 = .refused e →
         CandidateEnded s f src e t ∧ t.flash = s.flash) ∧
       (∀ e, classifyEntry top.buffer 256 top.kind = some false →
         judgeChild f src (rest.length + 1) top.buffer 256 = .refused e → CandidateEnded s f src e t ∧ t.flash = s.flash) ∧
       (∀ frame, classifyEntry top.buffer 256 top.kind = some false →
         judgeChild f src (rest.length + 1) top.buffer 256 = .pushed frame → t = { s with manifest := { s.manifest with
           signatureJob := none
           stack := frame :: { top with next := 0 } :: rest
           walkRead := some ⟨f.regionBase src + le32 top.buffer 260, 256⟩ } })) ∧
  ((∀ b : Bytes, entryOffset b 0 = 256 ∧ ∀ k, entryOffset b (k + 1) = entryOffset b k + le16 b (entryOffset b k + 2)) ∧
   ∀ (s : State) (f : FuseImage) (src : Source) (top cur : Frame) (rest below : List Frame) (j : SignatureJob)
     (ims : List (Image × List Digest)),
     s.live = true → s.manifest.state = .walking → s.manifest.signatureJob = some j → j.passes = true →
     s.fuseImage = some f → s.manifest.current = some src → s.manifest.stack = top :: rest → rest.length ≤ 2 →
     checkSettings f top.kind top.buffer = .none → ims.length ≤ 48 →
     WalkPasses f src s.images s.store.length ({ top with next := 0 } :: rest) ims (cur :: below) →
     let o := entryOffset cur.buffer cur.next
     let kind := classifyEntry cur.buffer o cur.kind
     let image := judgeImage f src (s.images ++ ims.map (·.1)) (s.store.length + (ims.map (·.2.length)).sum)
       ((cur :: below).reverse.filterMap (·.condition)) cur.buffer o
     let child := judgeChild f src (below.length + 1) cur.buffer o
     ∃ t, exec (.signatureDone true) s = .next t ∧
       (cur.next < byteAt cur.buffer 6 →
         (kind = none → CandidateEnded s f src .badEntry t ∧ t.flash = s.flash) ∧
         (∀ e, kind = some true → image = .refused e → CandidateEnded s f src e t ∧ t.flash = s.flash) ∧
         (∀ e, kind = some false → child = .refused e → CandidateEnded s f src e t ∧ t.flash = s.flash) ∧
         (∀ frame, kind = some false → child = .pushed frame → t = { s with
           images := s.images ++ ims.map (·.1)
           store := s.store ++ ims.flatMap fun x => x.2.zipIdx.map fun d => ⟨x.1.index, d.2, d.1, .good⟩
           segMap := s.segMap ++ ims.map fun x => List.replicate x.1.segments .unverified
           manifest := { s.manifest with
             signatureJob := none, stack := frame :: cur :: below, walkRead := some ⟨frame.location, 256⟩ } })) ∧
       (byteAt cur.buffer 6 ≤ cur.next → below = [] → WalkCompletes s src cur.buffer ims t))

/-- The tests of an IMAGE entry in their order: the fields, the region, the window, the overlap, the room in the image table and
in the digest store; an entry that passes gives the record R34 sets (R29, R30, R31, R32, R33, R34, R204). -/
def Obligations.ImageEntryTestsInOrder : Prop :=
  ∀ (f : FuseImage) (src : Source) (images : List Image) (stored : Nat) (outer : List Condition) (b : Bytes) (o : Nat),
    let n := le16 b (o + 16)
    let blocks := (n + 127) / 128
    let size := if byteAt b (o + 13) = 2 then le32 b (o + 32) else n * 4096
    let base := le32 b (o + 28)
    let cond := o + 32 + if byteAt b (o + 13) = 2 then 4 else 0
    let flagged := (b.getD (o + 1) 0).getLsbD 0
    let fields := (1 ≤ byteAt b (o + 12) ∧ byteAt b (o + 12) ≤ 3) ∧ (1 ≤ n ∧ n ≤ 8192) ∧ le32 b (o + 20) % 4096 = 0 ∧
      le32 b (o + 24) % 4096 = 0 ∧ (byteAt b (o + 13) = 1 ∨ byteAt b (o + 13) = 2) ∧
      (byteAt b (o + 14) = 1 ∨ byteAt b (o + 14) = 2) ∧ byteAt b (o + 15) ≤ 4 ∧
      (flagged = true → byteAt b cond ≤ 7 ∧ (byteAt b (cond + 1) = 1 ∨ byteAt b (cond + 1) = 2))
    let inRegion := le32 b (o + 20) + n * 4096 ≤ f.regionBytes src ∧ le32 b (o + 24) + blocks * 4096 ≤ f.regionBytes src
    let window := base % 4096 = 0 ∧ base + size ≤ 2 ^ 26 ∧
      (byteAt b (o + 13) = 2 → (∃ k, 12 ≤ k ∧ k ≤ 24 ∧ size = 2 ^ k) ∧ n * 4096 ≤ size)
    let sees := fun (code : Nat) (p : Port) => match p with | .a => code = 1 ∨ code = 3 | .b => code = 2 ∨ code = 3
    let apart := ∀ im ∈ images, ∀ p, im.owner.sees p = true → sees (byteAt b (o + 12)) p →
      base + size ≤ im.windowBase ∨ im.windowBase + im.windowSpan ≤ base
    let judged := judgeImage f src images stored outer b o
    (¬ fields → judged = .refused .badEntry) ∧
    (fields → ¬ inRegion → judged = .refused .outOfRegion) ∧
    (fields → inRegion → ¬ window → judged = .refused .badWindow) ∧
    (fields → inRegion → window → ¬ apart → judged = .refused .windowOverlap) ∧
    (fields → inRegion → window → apart → 16 ≤ images.length → judged = .refused .tableFull) ∧
    (fields → inRegion → window → apart → images.length < 16 → 128 < stored + blocks →
      judged = .refused .digestStoreFull) ∧
    (fields → inRegion → window → apart → images.length < 16 → stored + blocks ≤ 128 → ∃ im, judged =
      .accepted im ((List.range blocks).map fun k => slice b (cond + (if flagged then 4 else 0) + 32 * k) 32) ∧
      im.index = images.length ∧ im.name = slice b (o + 4) 8 ∧ im.segments = n ∧ im.windowBase = base ∧
      im.windowSpan = size ∧ (im.windowMode = .mirror ↔ byteAt b (o + 13) = 2) ∧
      (∀ p, im.owner.sees p = true ↔ sees (byteAt b (o + 12)) p) ∧ (im.releaseMode = .eager ↔ byteAt b (o + 14) = 1) ∧
      im.readAhead = byteAt b (o + 15) ∧ im.flashBase = f.regionBase src + le32 b (o + 20) ∧
      im.digestBase = f.regionBase src + le32 b (o + 24) ∧ im.firstStore = stored ∧ im.blockCount = blocks ∧
      im.included = false ∧ im.state = .pending ∧ im.verified = 0 ∧ im.failure = none ∧
      (flagged = false → im.conditions = outer) ∧
      (flagged = true → ∃ c : Condition, im.conditions = outer ++ [c] ∧ c.bit.val = byteAt b cond ∧
        (c.sense = .set ↔ byteAt b (cond + 1) = 1)))

/-- After every SIGNATURE_DONE, whose verdict is the one its job decides, the walk goes on, ends or completes: while the
verifier is still WALKING a walk read is asked for (R22, R26, R28, R36, R37; log entries 5 and 31). -/
def Obligations.WalkNeverStalls : Prop :=
  ∀ (s : State) (j : SignatureJob), s.live = true → s.manifest.state = .walking → s.manifest.signatureJob = some j →
    s.fuseImage.isSome = true → s.manifest.current.isSome = true → s.manifest.stack ≠ [] → s.manifest.stack.length ≤ 3 →
    (∀ fr ∈ s.manifest.stack, byteAt fr.buffer 6 ≤ 16) →
    ∃ t, exec (.signatureDone j.passes) s = .next t ∧ t.manifest.signatureJob = none ∧
      (t.manifest.state = .walking → t.manifest.walkRead.isSome = true ∧ t.manifest.stack ≠ []) ∧
      (t.manifest.state = .walking ∨ t.manifest.state = .serving ∨ t.manifest.state = .recoveryServing ∨
        t.manifest.state = .locked)

/-- SWITCHING_TEARDOWN: with the flash controller IDLE the tables, slots, lines and rescan state are emptied, and the recovery
manifest is walked as the one candidate; while it is busy the teardown waits (R40, R41, R64, R100, R109, R188; that the
teardown is a step of its own is log entry 10). -/
def Obligations.TeardownWalksTheRecoveryManifest : Prop :=
  ∀ (s : State) (f : FuseImage), s.live = true → s.manifest.state = .switching → s.fuseImage = some f →
    (s.flash.op ≠ .idle → exec .switchingTeardown s = .next s) ∧
    (s.flash.op = .idle → ∃ t, exec .switchingTeardown s = .next t ∧ WalkBegun f .recovery t ∧ t.manifest.candidates = [] ∧
      t.images = [] ∧ t.store = [] ∧ t.segMap = [] ∧ (∀ k : Fin 8, t.slots[k].state = .free ∧ t.slots[k].hold = 0) ∧
      (∀ n : Fin 64, t.lines[n].state = .free ∧ t.lines[n].pins = 0 ∧ t.lines[n].waiters = []) ∧
      t.slotLru = [] ∧ t.lineLru = [] ∧ t.arbiter = ⟨.a, [], 0, 0⟩ ∧
      t.rescan = { s.rescan with
        running := false, debt := 0, cursorImage := 0, cursorSegment := 0, buffer := .empty, tag := none, passCount := 0 } ∧
      t = { s with
        images := [], store := [], segMap := [], slots := t.slots, lines := t.lines, slotLru := [], lineLru := []
        arbiter := t.arbiter, rescan := t.rescan
        manifest := { s.manifest with
          state := .walking, startStep := none, current := some .recovery, candidates := [], stack := t.manifest.stack
          walkRead := t.manifest.walkRead } })

/-! ## Flash -/

/-- FLASH_GRANT outside SERVING and RECOVERY_SERVING: in STARTING and WALKING the walk read outstanding begins, a read data of
its address; in SWITCHING and LOCKED, with no walk read outstanding, or while an operation is in progress, nothing is
granted (R102, R104, R109, R115; 12_formats.md, Flash operations; that a selection is a step of its own is log entry 10). -/
def Obligations.FlashGrantServesTheWalk : Prop :=
  ∀ s : State, s.live = true →
    (∀ r, s.flash.op = .idle → s.manifest.state = .starting ∨ s.manifest.state = .walking → s.manifest.walkRead = some r →
      exec .flashGrant s = .next { s with flash := ⟨.walkRead r, [⟨0x6C, be32 r.address, 8, .fio0to3, []⟩]⟩ }) ∧
    (s.flash.op ≠ .idle ∨ s.manifest.state = .switching ∨ s.manifest.state = .locked ∨
      ((s.manifest.state = .starting ∨ s.manifest.state = .walking) ∧ s.manifest.walkRead = none) →
      exec .flashGrant s = .next s)

/-- FLASH_GRANT of a demand fill: with the debt below 8 and the head READ of the port the turn names having its first segment
outstanding, its digest block VALID in slot `k`, and line `n` the one to take, the line becomes FILLING with the granted
request first on its waiter list, the slot is held, the turn passes and the flash reads the segment (R71, R73, R88, R89,
R110, R113, R114, R117). FLASH_GRANT of a digest block fill for a demand: the block is in no slot, its store entry is GOOD
and slot `k` is the one to take; the slot becomes FILLING with no hold, the segment stays outstanding and the turn passes
(R65, R66, R112, R114). -/
def Obligations.FlashGrantFillsAndFetches : Prop :=
  (∀ (s : State) (p : Port) (e : Entry) (es : List Entry) (r : ReadBody) (i g : Nat) (im : Image) (hs : List SegHold)
     (n : Fin 64) (k : Fin 8), s.live = true → s.flash.op = .idle → s.manifest.state = .serving ∨
       s.manifest.state = .recoveryServing → s.rescan.debt ≠ 8 → s.arbiter.turn = p → (s.port p).queue = e :: es →
     e.status = none → e.body = .read r → r.image = some i → r.holds = ⟨g, .outstanding⟩ :: hs → s.images[i]? = some im →
     s.engine.waiting = none → s.slots[k].state = .valid → s.slots[k].tag = some ⟨i, g / 128⟩ →
     (∀ j : Fin 8, j < k → s.slots[j].state = .valid → s.slots[j].tag ≠ some ⟨i, g / 128⟩) → s.chooseLine = some n →
     ∃ t, exec .flashGrant s = .next t ∧
       t.lines[n].state = .filling ∧ t.lines[n].tag = some ⟨i, g⟩ ∧ t.lines[n].pins = 0 ∧
       t.lines[n].fillClass = some .demand ∧ t.lines[n].streamMark = false ∧
       (∃ ws, t.lines[n].waiters = ⟨p, e.id, r.pieces.filter fun x => x.segment == g⟩ :: ws) ∧
       (∀ m : Fin 64, m ≠ n → t.lines[m] = s.lines[m]) ∧ t.lineLru = s.lineLru.erase n ∧
       t.slots[k] = { s.slots[k] with hold := s.slots[k].hold + 1 } ∧ (∀ j : Fin 8, j ≠ k → t.slots[j] = s.slots[j]) ∧
       t.arbiter = { s.arbiter with
         turn := otherPort p, readAhead := s.arbiter.readAhead.filter fun x => !(x.image == i && x.segment == g) } ∧
       (∃ e' es', (t.port p).queue = e' :: es' ∧ e'.holds.head? = some ⟨g, .waiting n⟩) ∧
       t.flash = ⟨.unitRead ⟨.line n ⟨i, g⟩ k, false⟩ (im.flashBase + g * 4096),
         [⟨0x6C, be32 (im.flashBase + g * 4096), 8, .fio0to3, []⟩]⟩ ∧
       t = { s with
         lines := t.lines, lineLru := t.lineLru, slots := t.slots, arbiter := t.arbiter, flash := t.flash
         portA := { s.portA with queue := t.portA.queue }, portB := { s.portB with queue := t.portB.queue } }) ∧
  (∀ (s : State) (p : Port) (e : Entry) (es : List Entry) (r : ReadBody) (i g : Nat) (im : Image) (hs : List SegHold)
     (x : StoreEntry) (k : Fin 8), s.live = true → s.flash.op = .idle → s.manifest.state = .serving ∨
       s.manifest.state = .recoveryServing → s.rescan.debt ≠ 8 → s.arbiter.turn = p → (s.port p).queue = e :: es →
     e.status = none → e.body = .read r → r.image = some i → r.holds = ⟨g, .outstanding⟩ :: hs → s.images[i]? = some im →
     s.engine.waiting = none → (∀ j : Fin 8, s.slots[j].state ≠ .free → s.slots[j].tag ≠ some ⟨i, g / 128⟩) →
     s.store[im.firstStore + g / 128]? = some x → x.state = .good → s.chooseSlot = some k →
     ∃ t, exec .flashGrant s = .next t ∧
       t.slots[k] = { s.slots[k] with state := .filling, tag := some ⟨i, g / 128⟩, hold := 0 } ∧
       (∀ j : Fin 8, j ≠ k → t.slots[j] = s.slots[j]) ∧
       t = { s with
         slots := t.slots, slotLru := s.slotLru.erase k, arbiter := { s.arbiter with turn := otherPort p }
         flash := ⟨.unitRead ⟨.slot k ⟨i, g / 128⟩, false⟩ (im.digestBase + g / 128 * 4096),
           [⟨0x6C, be32 (im.digestBase + g / 128 * 4096), 8, .fio0to3, []⟩]⟩ })

/-- FLASH_GRANT of the WRITE or ERASE at the head of Port A's queue, with the turn at Port A: write enable and then page program
with the data, or sector erase with the address of the segment that holds the entry's, are sent, a read status at once after
them, the entry is granted and the turn passes (R103, R105, R106, R113, R114, R143; that the data leaves the entry at the
grant is the model's DEDUCED choice, log entry 26). STATUS_READ_DONE of a program or erase: busy, the status is read again;
not busy, the controller is IDLE and the entry, if it is still queued, is decided DONE or, with the error indication,
WRITE_FAULT (R105, R106, R108; 12_formats.md, Flash operations). PROGRAM_LIMIT_EXPIRY and ERASE_LIMIT_EXPIRY: the flash
reset sequence is sent and the entry is decided TIMEOUT (R102, R103, R107; that the result is placed at the limit's expiry
is log entry 15). -/
def Obligations.WritesAndErasesRunAtTheFlash : Prop :=
  (∀ (s : State) (e : Entry) (es : List Entry) (a : Nat), s.live = true → s.flash.op = .idle → s.manifest.state = .serving ∨
       s.manifest.state = .recoveryServing → s.rescan.debt ≠ 8 → s.arbiter.turn = .a → s.portA.queue = e :: es →
     e.status = none → e.granted = false → (∀ x ∈ es, x.id ≠ e.id) →
     (∀ d, e.body = .write a d → exec .flashGrant s = .next { s with
       portA := { s.portA with queue := { e with granted := true, body := .write a [] } :: es }
       arbiter := { s.arbiter with turn := .b }
       flash := ⟨.programming a e.id,
         [⟨0x06, [], 0, .none, []⟩, ⟨0x12, be32 a, 0, .fio0, d⟩, ⟨0x05, [], 0, .fio1, []⟩]⟩ }) ∧
     (e.body = .erase a → exec .flashGrant s = .next { s with
       portA := { s.portA with queue := { e with granted := true } :: es }
       arbiter := { s.arbiter with turn := .b }
       flash := ⟨.erasing (a - a % 4096) e.id,
         [⟨0x06, [], 0, .none, []⟩, ⟨0x21, be32 (a - a % 4096), 0, .none, []⟩, ⟨0x05, [], 0, .fio1, []⟩]⟩ })) ∧
  (∀ (s : State) (a id : Nat) (status : Byte), s.live = true →
     s.flash.op = .programming a id ∨ s.flash.op = .erasing a id →
     (status.getLsbD 0 = true → exec (.statusReadDone status) s =
       .next { s with flash := { s.flash with sent := [⟨0x05, [], 0, .fio1, []⟩] } }) ∧
     (status.getLsbD 0 = false → exec (.statusReadDone status) s = .next { s with
       flash := { s.flash with op := .idle }
       portA := { s.portA with queue := s.portA.queue.map fun e => if e.id = id then
         { e with status := some (if status.getLsbD 5 = true then .writeFault else .done) } else e } })) ∧
  (∀ (s : State) (a id : Nat), s.live = true →
     let timedOut : State := { s with
       flash := ⟨.resetting .idle, [⟨0x66, [], 0, .none, []⟩, ⟨0x99, [], 0, .none, []⟩]⟩
       portA := { s.portA with queue := s.portA.queue.map fun e => if e.id = id then
         { e with status := some .timeout } else e } }
     (s.flash.op = .programming a id → exec .programLimitExpiry s = .next timedOut) ∧
     (s.flash.op = .erasing a id → exec .eraseLimitExpiry s = .next timedOut))

/-- RESCAN_TIMER_EXPIRY while the timer runs adds 1 to the rescan debt, which stays at 8 (R178, R179). FLASH_GRANT at a debt of
8 serves the rescan unit's candidate ahead of every other class while the buffer is EMPTY: its read, when the debt falls to
7, a wrapping candidate counts a pass, the cursor goes just past the segment and the slot is held; or first the fill of its
digest block, which leaves the debt (R109, R112, R120, R181, R183). -/
def Obligations.RescanDebtForcesTheCandidate : Prop :=
  (∀ s : State, s.live = true → s.rescan.running = true →
     (s.rescan.debt < 8 → exec .rescanTimerExpiry s =
       .next { s with rescan := { s.rescan with debt := s.rescan.debt + 1 } }) ∧
     (s.rescan.debt = 8 → exec .rescanTimerExpiry s = .next s)) ∧
  (∀ (s : State) (c : SegTag) (wraps : Bool) (im : Image) (k : Fin 8), s.live = true → s.flash.op = .idle →
     s.manifest.state = .serving ∨ s.manifest.state = .recoveryServing → s.rescan.debt = 8 → s.rescan.buffer = .empty →
     s.rescanCandidate = some (c, wraps) → s.images[c.image]? = some im → s.engine.waiting = none →
     (s.slots[k].state = .valid → s.slots[k].tag = some ⟨c.image, c.segment / 128⟩ →
       (∀ j : Fin 8, j < k → s.slots[j].state = .valid → s.slots[j].tag ≠ some ⟨c.image, c.segment / 128⟩) →
       ∃ t, exec .flashGrant s = .next t ∧
         t.rescan = { s.rescan with
           debt := 7, passCount := if wraps = true then s.rescan.passCount + 1 else s.rescan.passCount
           cursorImage := c.image, cursorSegment := c.segment + 1, buffer := .filling, tag := some c } ∧
         t.service = (if wraps = true then s.service.occurrence .rescanPass else s.service) ∧
         t.slots[k] = { s.slots[k] with hold := s.slots[k].hold + 1 } ∧ (∀ j : Fin 8, j ≠ k → t.slots[j] = s.slots[j]) ∧
         t = { s with
           rescan := t.rescan, service := t.service, slots := t.slots
           flash := ⟨.unitRead ⟨.rescan c k, false⟩ (im.flashBase + c.segment * 4096),
             [⟨0x6C, be32 (im.flashBase + c.segment * 4096), 8, .fio0to3, []⟩]⟩ }) ∧
     ((∀ j : Fin 8, s.slots[j].state ≠ .free → s.slots[j].tag ≠ some ⟨c.image, c.segment / 128⟩) →
       s.blockFailed c.image (c.segment / 128) = false → s.chooseSlot = some k →
       exec .flashGrant s = .next { s with
         slots := s.slots.set k { s.slots[k] with state := .filling, tag := some ⟨c.image, c.segment / 128⟩, hold := 0 }
         slotLru := s.slotLru.erase k
         flash := ⟨.unitRead ⟨.slot k ⟨c.image, c.segment / 128⟩, false⟩ (im.digestBase + c.segment / 128 * 4096),
           [⟨0x6C, be32 (im.digestBase + c.segment / 128 * 4096), 8, .fio0to3, []⟩]⟩ }))

/-- The rescan unit's candidate lies in the rescan set (an included image's VERIFIED segment in no FAILED block); it is the
first of the set at or after the cursor, and when none is, the first of the set, as a wrap; an empty set has none (R180,
R181). The sweep takes the lowest-indexed included PENDING image that has an open segment: one UNVERIFIED, with no line
FILLING, HASHING or VALID, in no FAILED block. Its candidate is the first open segment of that image at or after the cursor,
and it has one whenever there is one; with no such image it has none (R118). FLASH_GRANT when no class above has a grantable
candidate. The oldest read-ahead entry that is grantable, and the sweep's candidate, begin a fill of class READ_AHEAD or
SWEEP, its waiter list the requests with the segment outstanding, the entry's port or Port A first; a filled segment's
entries leave the list and the sweep cursor goes past it; a block in no slot is fetched first and the entry or cursor stays.
The rescan unit's candidate comes last, at a debt of 1 to 7, its block also while the buffer is in use; at a debt of 8 with
the buffer in use it gets nothing (R66, R89, R109, R110, R112, R117, R118, R120, R182; the last is the model's DEDUCED
choice, log entry 13, and that the cursor moves to a candidate not granted is log entry 11). -/
def Obligations.BackgroundCandidatesAreFirst : Prop :=
  (∀ s : State,
     let inSet := fun i g => ∃ im, s.images[i]? = some im ∧ im.included = true ∧ g < im.segments ∧
       s.segState i g = .verified ∧ s.blockFailed i (g / 128) = false
     let reached := fun i g => s.rescan.cursorImage < i ∨ s.rescan.cursorImage = i ∧ s.rescan.cursorSegment ≤ g
     (s.rescanCandidate = none ↔ ∀ i g, ¬ inSet i g) ∧
     (∀ c, s.rescanCandidate = some (c, false) → inSet c.image c.segment ∧ reached c.image c.segment ∧
       ∀ i g, inSet i g → reached i g → c.image < i ∨ c.image = i ∧ c.segment ≤ g) ∧
     (∀ c, s.rescanCandidate = some (c, true) → inSet c.image c.segment ∧ (∀ i g, inSet i g → ¬ reached i g) ∧
       ∀ i g, inSet i g → c.image < i ∨ c.image = i ∧ c.segment ≤ g)) ∧
  (∀ s : State,
     let isOpen := fun i g => s.segState i g = .unverified ∧ s.blockFailed i (g / 128) = false ∧
       ∀ n : Fin 64, s.lines[n].tag = some ⟨i, g⟩ → s.lines[n].state = .free ∨ s.lines[n].state = .stale
     let takes := fun i => ∃ im, s.images[i]? = some im ∧ im.included = true ∧ im.state = .pending ∧
       ∃ g, g < im.segments ∧ isOpen i g
     let start := fun i => if s.arbiter.sweepImage = i then s.arbiter.sweepSegment else 0
     (∀ c, s.sweepCandidate = some c → takes c.image ∧ (∀ i, i < c.image → ¬ takes i) ∧ isOpen c.image c.segment ∧
       start c.image ≤ c.segment ∧ ∀ g, start c.image ≤ g → g < c.segment → ¬ isOpen c.image g) ∧
     (∀ i im g, takes i → (∀ j, j < i → ¬ takes j) → s.images[i]? = some im → g < im.segments → start i ≤ g → isOpen i g →
       ∃ x, s.sweepCandidate = some ⟨i, x⟩) ∧
     ((∀ i, ¬ takes i) → s.sweepCandidate = none)) ∧
  (∀ s : State, s.live = true → s.flash.op = .idle → s.manifest.state = .serving ∨ s.manifest.state = .recoveryServing →
     s.demandGrant = none → s.engine.waiting = none →
     let resident := fun (t : SegTag) (k : Fin 8) => s.slots[k].state = .valid ∧
       s.slots[k].tag = some ⟨t.image, t.segment / 128⟩ ∧
       ∀ j : Fin 8, j < k → s.slots[j].state = .valid → s.slots[j].tag ≠ some ⟨t.image, t.segment / 128⟩
     let missing := fun (t : SegTag) (k : Fin 8) => s.blockFailed t.image (t.segment / 128) = false ∧ s.chooseSlot = some k ∧
       ∀ j : Fin 8, s.slots[j].state ≠ .free → s.slots[j].tag ≠ some ⟨t.image, t.segment / 128⟩
     let outstanding := fun (t : SegTag) (e : Entry) =>
       e.readsImage t.image && e.holds.any fun h => h.segment == t.segment && h.hold == .outstanding
     let waiters := fun (t : SegTag) (p : Port) => ((s.port p).queue.filter (outstanding t)).map fun e =>
       (⟨p, e.id, e.piecesIn t.segment⟩ : Waiter)
     let fills := fun (cls : FillClass) (p : Port) (t : SegTag) (im : Image) (n : Fin 64) (k : Fin 8) (cursor : Nat × Nat) =>
       ∃ u, exec .flashGrant s = .next u ∧
         (∀ q, u.port q = { s.port q with queue := (s.port q).queue.map fun e =>
           if (outstanding t e) = true then e.setHold t.segment (.waiting n) else e }) ∧
         u = { s with
           lines := s.lines.set n { s.lines[n] with
             state := .filling, tag := some t, pins := 0, waiters := waiters t p ++ waiters t (otherPort p)
             fillClass := some cls, streamMark := false }
           lineLru := s.lineLru.erase n, portA := u.portA, portB := u.portB
           slots := s.slots.set k { s.slots[k] with hold := s.slots[k].hold + 1 }
           arbiter := { s.arbiter with
             readAhead := s.arbiter.readAhead.filter fun r => !(r.image == t.image && r.segment == t.segment)
             sweepImage := cursor.1, sweepSegment := cursor.2 }
           flash := ⟨.unitRead ⟨.line n t k, false⟩ (im.flashBase + t.segment * 4096),
             [⟨0x6C, be32 (im.flashBase + t.segment * 4096), 8, .fio0to3, []⟩]⟩ }
     let fetches := fun (t : SegTag) (im : Image) (k : Fin 8) (cursor : Nat × Nat) => exec .flashGrant s = .next { s with
       slots := s.slots.set k { s.slots[k] with state := .filling, tag := some ⟨t.image, t.segment / 128⟩, hold := 0 }
       slotLru := s.slotLru.erase k
       arbiter := { s.arbiter with sweepImage := cursor.1, sweepSegment := cursor.2 }
       flash := ⟨.unitRead ⟨.slot k ⟨t.image, t.segment / 128⟩, false⟩ (im.digestBase + t.segment / 128 * 4096),
         [⟨0x6C, be32 (im.digestBase + t.segment / 128 * 4096), 8, .fio0to3, []⟩]⟩ }
     let cursor := (s.arbiter.sweepImage, s.arbiter.sweepSegment)
     (∀ old r new im k, s.rescan.debt ≠ 8 → s.arbiter.readAhead = old ++ r :: new →
       (∀ x ∈ old, s.standing x.image x.segment = .blocked) → s.images[r.image]? = some im →
       (∀ n, resident ⟨r.image, r.segment⟩ k → s.chooseLine = some n →
         fills .readAhead r.origin ⟨r.image, r.segment⟩ im n k cursor) ∧
       (missing ⟨r.image, r.segment⟩ k → fetches ⟨r.image, r.segment⟩ im k cursor)) ∧
     ((∀ x ∈ s.arbiter.readAhead, s.standing x.image x.segment = .blocked) →
       (∀ c im k, s.rescan.debt ≠ 8 → s.sweepCandidate = some c → s.images[c.image]? = some im →
         (∀ n, resident c k → s.chooseLine = some n → fills .sweep .a c im n k (c.image, c.segment + 1)) ∧
         (missing c k → fetches c im k (c.image, c.segment))) ∧
       (∀ c, s.rescan.debt = 0 → s.sweepCandidate = some c → s.standing c.image c.segment = .blocked →
         exec .flashGrant s =
           .next { s with arbiter := { s.arbiter with sweepImage := c.image, sweepSegment := c.segment } }) ∧
       (s.sweepCandidate = none →
         (∀ c wraps im k, 1 ≤ s.rescan.debt → s.rescan.debt < 8 → s.rescanCandidate = some (c, wraps) →
           s.images[c.image]? = some im →
           (resident c k → s.rescan.buffer = .empty → exec .flashGrant s = .next { s with
             rescan := { s.rescan with
               debt := s.rescan.debt - 1, passCount := if wraps = true then s.rescan.passCount + 1 else s.rescan.passCount
               cursorImage := c.image, cursorSegment := c.segment + 1, buffer := .filling, tag := some c }
             service := if wraps = true then s.service.occurrence .rescanPass else s.service
             slots := s.slots.set k { s.slots[k] with hold := s.slots[k].hold + 1 }
             flash := ⟨.unitRead ⟨.rescan c k, false⟩ (im.flashBase + c.segment * 4096),
               [⟨0x6C, be32 (im.flashBase + c.segment * 4096), 8, .fio0to3, []⟩]⟩ }) ∧
           (resident c k → s.rescan.buffer ≠ .empty → exec .flashGrant s = .next s) ∧
           (missing c k → fetches c im k cursor)) ∧
         (s.rescan.debt = 0 ∨ s.rescanCandidate = none ∨ (s.rescan.debt = 8 ∧ s.rescan.buffer ≠ .empty) →
           exec .flashGrant s = .next s))))

/-- Every unit read that FLASH_GRANT begins was grantable: the wait place of the digest engine was empty; a segment fill's or
rescan read's block was VALID in the slot it holds, a fill's line was FREE or a VALID line with no pin, and a block's slot
was FREE or a VALID slot with no hold; a rescan read found the buffer EMPTY (R66, R71, R88, R110, R112). -/
def Obligations.GrantedReadsWereGrantable : Prop :=
  ∀ (s t : State) (u : HashUnit) (a : Nat), s.flash.op = .idle → exec .flashGrant s = .next t → t.flash.op = .unitRead u a →
    s.isServing = true ∧ u.discarded = false ∧ s.engine.waiting = none ∧
    (∀ n tag k, u.owner = .line n tag k →
      (s.lines[n].state = .free ∨ s.lines[n].state = .valid ∧ s.lines[n].pins = 0) ∧
      s.slots[k].state = .valid ∧ s.slots[k].tag = some ⟨tag.image, tag.segment / 128⟩) ∧
    (∀ k tag, u.owner = .slot k tag →
      (s.slots[k].state = .free ∨ s.slots[k].state = .valid ∧ s.slots[k].hold = 0) ∧
      (∀ j : Fin 8, s.slots[j].state ≠ .free → s.slots[j].tag ≠ some tag) ∧ s.blockFailed tag.image tag.block = false) ∧
    (∀ tag k, u.owner = .rescan tag k → s.rescan.buffer = .empty ∧ 1 ≤ s.rescan.debt ∧
      s.slots[k].state = .valid ∧ s.slots[k].tag = some ⟨tag.image, tag.segment / 128⟩)

/-- FLASH_READ_DONE of a unit read: the owner takes the bytes and is HASHING, and its unit is hashed at once or waits; a read
discarded at entry to SWITCHING changes nothing but the flash controller, which is IDLE (R41, R67, R72, R73, R104, R111,
R183). -/
def Obligations.ReadDoneHandsTheUnitOver : Prop :=
  ∀ (s : State) (u : HashUnit) (a : Nat) (data : Bytes), s.live = true → s.flash.op = .unitRead u a → data.length = 4096 →
    (u.discarded = true → exec (.flashReadDone data) s = .next { s with flash := { s.flash with op := .idle } }) ∧
    (u.discarded = false → ∃ t, exec (.flashReadDone data) s = .next t ∧ t.flash = { s.flash with op := .idle } ∧
      (s.engine.hashing = none → t.engine = { s.engine with hashing := some u }) ∧
      (s.engine.hashing ≠ none → t.engine = { s.engine with waiting := some u }) ∧
      (∀ n tag k, u.owner = .line n tag k → t.lines[n] = { s.lines[n] with state := .hashing, data := data } ∧
        (∀ m : Fin 64, m ≠ n → t.lines[m] = s.lines[m]) ∧ t.slots = s.slots ∧ t.rescan = s.rescan) ∧
      (∀ n tag, u.owner = .slot n tag → t.slots[n] = { s.slots[n] with state := .hashing, data := data } ∧
        (∀ m : Fin 8, m ≠ n → t.slots[m] = s.slots[m]) ∧ t.lines = s.lines ∧ t.rescan = s.rescan) ∧
      (∀ tag k, u.owner = .rescan tag k → t.rescan = { s.rescan with buffer := .hashing, data := data } ∧
        t.lines = s.lines ∧ t.slots = s.slots) ∧
      t = { s with flash := t.flash, engine := t.engine, lines := t.lines, slots := t.slots, rescan := t.rescan })

/-! ## Verification -/

/-- DIGEST_BLOCK_HASH_DONE with a match: the slot becomes VALID at the most-recent end of its order, the waiting unit begins
hashing, and nothing else changes (R68, R72). A unit discarded at entry to SWITCHING acts on nothing at its completion: only
the engine goes on (R41, R72, R81). -/
def Obligations.BlockMatchAndDiscardedUnits : Prop :=
  (∀ (s : State) (n : Fin 8) (t : BlockTag) (im : Image) (e : StoreEntry), s.live = true →
     s.engine.hashing = some ⟨.slot n t, false⟩ → s.images[t.image]? = some im →
     s.store[im.firstStore + t.block]? = some e → sha256 s.slots[n].data = e.digest →
     exec .digestBlockHashDone s = .next { s with
       engine := ⟨s.engine.waiting, none⟩
       slots := s.slots.set n { s.slots[n] with state := .valid }
       slotLru := s.slotLru.erase n ++ [n] }) ∧
  (∀ (s : State) (o : UnitOwner) (c : Instr), s.live = true → s.engine.hashing = some ⟨o, true⟩ →
     (match o with
       | .slot _ _ => c = .digestBlockHashDone
       | .line _ _ _ => c = .segmentHashDone
       | .rescan _ _ => c = .rescanHashDone) →
     exec c s = .next { s with engine := ⟨s.engine.waiting, none⟩ })

/-- DIGEST_BLOCK_HASH_DONE with a mismatch: the slot becomes FREE and the store entry FAILED, no segment state or count changes,
each undecided READ with an unpinned piece in the block ends FAILED and gives up its pins and its waiter's places, and the
block's read-ahead entries go. The image, unless it is FAILED already, fails with kind BLOCK, here with the verifier staying
put; an image already FAILED stays as it is, and so do permit and service port (R45, R69, R70, R78, R86, R94, R95, R170,
R171; the order in which stream-marked lines reach the least-recent end is left open, log entry 32). -/
def Obligations.BlockMismatchFailsTheImage : Prop :=
  ∀ (s : State) (n : Fin 8) (t : BlockTag) (im : Image) (e : StoreEntry), s.live = true →
    s.staysPut ∨ im.state = .failed →
    s.engine.hashing = some ⟨.slot n t, false⟩ → s.images[t.image]? = some im →
    s.store[im.firstStore + t.block]? = some e → sha256 s.slots[n].data ≠ e.digest →
    let meets := fun x : Entry =>
      x.readsImage t.image && x.holds.any fun h => h.segment / 128 == t.block && !h.hold.isPinned
    let gone := s.undecidedReads meets
    ∃ u, exec .digestBlockHashDone s = .next u ∧
      (im.state ≠ .failed → ImageFails s ⟨t.image, .block, t.block⟩ im u) ∧
      (im.state = .failed → u.images = s.images ∧ u.permit = s.permit ∧ u.service = s.service) ∧
      u.slots = s.slots.set n { s.slots[n] with state := .free, tag := none, hold := 0 } ∧
      u.store = s.store.set (im.firstStore + t.block) { e with state := .failed } ∧
      (∀ x, u.images[t.image]? = some x → x.verified = im.verified) ∧
      (∀ p, u.port p = { s.port p with queue := (s.port p).queue.map fun x =>
        if (x.status.isNone && meets x) = true then { x.withHolds [] with status := some .failed } else x }) ∧
      (∀ m : Fin 64, u.lines[m] = s.lines[m].released gone m) ∧ (s.lineLru.Nodup → s.lruReleased u gone []) ∧
      u.arbiter = { s.arbiter with
        readAhead := s.arbiter.readAhead.filter fun r => !(r.image == t.image && r.segment / 128 == t.block) } ∧
      u = { s with
        engine := ⟨s.engine.waiting, none⟩, slots := u.slots, store := u.store, images := u.images, portA := u.portA
        portB := u.portB, lines := u.lines, lineLru := u.lineLru, arbiter := u.arbiter, permit := u.permit
        service := u.service }

/-- SEGMENT_HASH_DONE with a match, pins and holds agreeing: the line becomes VALID with its bytes, each READ that waits on it
takes a pin and is decided OK or SHORT once every segment is pinned, and the line enters the LRU order at the most-recent
end, or, filled by the sweep and pinned by none, at the least-recent end; the slot's hold falls; an UNVERIFIED segment
becomes VERIFIED, its image's count rises, and a PENDING image whose count reaches N becomes COMPLETE, which counts as an
occurrence, and both ports' releases and the permit are judged; otherwise permit, service port and port states stand (R61,
R71, R74, R75, R85, R91, R93, R130, R149, R162, R164). -/
def Obligations.SegmentMatchMakesTheLineValid : Prop :=
  ∀ (s : State) (n : Fin 64) (t : SegTag) (k : Fin 8) (im : Image), s.live = true → PinsAgree s →
    s.engine.hashing = some ⟨.line n t k, false⟩ → s.images[t.image]? = some im →
    s.segState t.image t.segment ≠ .failed → s.lines[n].state = .hashing → s.lines[n].tag = some t →
    sha256 s.lines[n].data = slice s.slots[k].data (32 * (t.segment % 128)) 32 →
    let completes := s.segState t.image t.segment = .unverified ∧ im.state = .pending ∧ im.segments ≤ im.verified + 1
    ∃ u, exec .segmentHashDone s = .next u ∧
      u.lines = s.lines.set n { s.lines[n] with state := .valid, waiters := [], pins := s.lines[n].waiters.length } ∧
      u.lineLru = (if s.lines[n].fillClass = some .sweep ∧ s.lines[n].waiters = [] then n :: s.lineLru
        else s.lineLru ++ [n]) ∧
      (∀ p, (u.port p).queue.length = (s.port p).queue.length ∧ ∀ (i : Nat) e, (s.port p).queue[i]? = some e →
        ((∀ h ∈ e.holds, h.hold ≠ .waiting n) → (u.port p).queue[i]? = some e) ∧
        ∀ r hs, e.body = .read r → (∃ h ∈ r.holds, h.hold = .waiting n) →
          hs = (r.holds.map fun h => if h.hold = .waiting n then { h with hold := .pinned n } else h) →
          (u.port p).queue[i]? = some { e with
            body := .read { r with holds := hs }
            status := if hs.all (fun h => h.hold.isPinned) = true then some (if r.short = true then .short else .ok)
              else none }) ∧
      u.slots = s.slots.set k { s.slots[k] with hold := s.slots[k].hold - 1 } ∧ u.slotLru = s.slotLru.erase k ++ [k] ∧
      u.segState t.image t.segment = .verified ∧
      (∀ i g, (i, g) ≠ (t.image, t.segment) → u.segState i g = s.segState i g) ∧
      (s.segState t.image t.segment = .verified → u.images = s.images) ∧
      (s.segState t.image t.segment = .unverified → u.images = s.images.set t.image { im with
        verified := im.verified + 1
        state := if im.state = .pending ∧ im.segments ≤ im.verified + 1 then .complete else im.state }) ∧
      (∀ p, u.port p = { s.port p with queue := (u.port p).queue, state := (u.port p).state }) ∧
      (completes → u.service.imageCounter = (s.service.occurrence .imageComplete).imageCounter ∧
        u.service.flag .imageComplete = (s.service.occurrence .imageComplete).flag .imageComplete ∧
        PermitFollows s.permit (s.service.occurrence .imageComplete) u ∧ ∀ p, PortJudged s p u) ∧
      (¬ completes → u.permit = s.permit ∧ u.service = s.service ∧ ∀ p, (u.port p).state = (s.port p).state) ∧
      u = { s with
        engine := ⟨s.engine.waiting, none⟩, lines := u.lines, lineLru := u.lineLru, slots := u.slots, slotLru := u.slotLru
        segMap := u.segMap, images := u.images, portA := u.portA, portB := u.portB, permit := u.permit
        service := u.service }

/-- SEGMENT_HASH_DONE with a mismatch: the line becomes FREE and the slot stays VALID with its hold one less; a segment already
FAILED changes nothing else. Otherwise the segment becomes FAILED and a VERIFIED one's count falls, each undecided READ with
an unpinned piece in the segment ends FAILED and gives up its pins and its waiter's places, and the image, unless it is
FAILED already, fails with kind SEGMENT, here with the verifier staying put (R45, R61, R70, R76, R77, R78, R79, R92, R94,
R95, R170, R171; the order in which stream-marked lines reach the least-recent end is left open, log entry 32). -/
def Obligations.SegmentMismatchFailsTheImage : Prop :=
  ∀ (s : State) (n : Fin 64) (t : SegTag) (k : Fin 8), s.live = true → s.engine.hashing = some ⟨.line n t k, false⟩ →
    let freed := s.lines.set n { s.lines[n] with
      state := .free, tag := none, pins := 0, waiters := [], fillClass := none, streamMark := false }
    (s.segState t.image t.segment = .failed → exec .segmentHashDone s = .next { s with
      engine := ⟨s.engine.waiting, none⟩, lines := freed, lineLru := s.lineLru.erase n
      slots := s.slots.set k { s.slots[k] with hold := s.slots[k].hold - 1 }, slotLru := s.slotLru.erase k ++ [k] }) ∧
    ∀ im, s.staysPut ∨ im.state = .failed → s.images[t.image]? = some im → s.segState t.image t.segment ≠ .failed →
      sha256 s.lines[n].data ≠ slice s.slots[k].data (32 * (t.segment % 128)) 32 →
      let meets := fun x : Entry =>
        x.readsImage t.image && x.holds.any fun h => h.segment == t.segment && !h.hold.isPinned
      let gone := s.undecidedReads meets
      let count := if s.segState t.image t.segment = .verified then im.verified - 1 else im.verified
      ∃ u, exec .segmentHashDone s = .next u ∧
        (im.state ≠ .failed → ImageFails s ⟨t.image, .segment, t.segment⟩ im u) ∧
        (im.state = .failed → u.images = s.images.set t.image { im with verified := count } ∧ u.permit = s.permit ∧
          u.service = s.service) ∧
        u.lines[n] = freed[n] ∧ (∀ m : Fin 64, m ≠ n → u.lines[m] = s.lines[m].released gone m) ∧
        (s.lineLru.Nodup → s.lruReleased u gone [n]) ∧
        u.slots = s.slots.set k { s.slots[k] with hold := s.slots[k].hold - 1 } ∧ u.slotLru = s.slotLru.erase k ++ [k] ∧
        u.segState t.image t.segment = .failed ∧
        (∀ i g, (i, g) ≠ (t.image, t.segment) → u.segState i g = s.segState i g) ∧
        (∀ x, u.images[t.image]? = some x → x.verified = count) ∧
        (∀ p, u.port p = { s.port p with queue := (s.port p).queue.map fun x =>
          if (x.status.isNone && meets x) = true then { x.withHolds [] with status := some .failed } else x }) ∧
        u.arbiter = { s.arbiter with
          readAhead := s.arbiter.readAhead.filter fun r => !(r.image == t.image && r.segment == t.segment) } ∧
        u = { s with
          engine := ⟨s.engine.waiting, none⟩, lines := u.lines, lineLru := u.lineLru, slots := u.slots
          slotLru := u.slotLru, segMap := u.segMap, images := u.images, portA := u.portA, portB := u.portB
          arbiter := u.arbiter, permit := u.permit, service := u.service }

/-- RESCAN_HASH_DONE: a match, or a segment no longer VERIFIED, only empties the buffer and releases the hold. A mismatch of a
VERIFIED segment, pins and holds agreeing, fails the segment, its count falls, and its VALID line becomes FREE or, while
pinned, STALE with tag, data and pins kept, its mark cleared and its place in the LRU order lost; each undecided READ with
an unpinned piece in the segment ends FAILED and gives up its holds, the segment's read-ahead entries go, and the image,
unless it is FAILED already, fails with kind RESCAN, here with the verifier staying put (R61, R71, R77, R78, R94, R95, R96,
R184, R185; the order in which stream-marked lines reach the least-recent end is left open, log entry 32). -/
def Obligations.RescanComparesWhileVerified : Prop :=
  ∀ (s : State) (t : SegTag) (k : Fin 8) (im : Image), s.live = true →
    s.engine.hashing = some ⟨.rescan t k, false⟩ → s.images[t.image]? = some im →
    (s.segState t.image t.segment ≠ .verified ∨
        sha256 s.rescan.data = slice s.slots[k].data (32 * (t.segment % 128)) 32 →
      exec .rescanHashDone s = .next { s with
        engine := ⟨s.engine.waiting, none⟩
        slots := s.slots.set k { s.slots[k] with hold := s.slots[k].hold - 1 }
        slotLru := s.slotLru.erase k ++ [k]
        rescan := { s.rescan with buffer := .empty, tag := none } }) ∧
    (PinsAgree s → s.segState t.image t.segment = .verified → s.staysPut ∨ im.state = .failed →
        sha256 s.rescan.data ≠ slice s.slots[k].data (32 * (t.segment % 128)) 32 →
      let meets := fun x : Entry =>
        x.readsImage t.image && x.holds.any fun h => h.segment == t.segment && !h.hold.isPinned
      let gone := s.undecidedReads meets
      let holds := fun m : Fin 64 => s.lines[m].state == .valid && s.lines[m].tag == some t
      ∃ u, exec .rescanHashDone s = .next u ∧
        (im.state ≠ .failed → ImageFails s ⟨t.image, .rescan, t.segment⟩ im u) ∧
        (im.state = .failed → u.images = s.images.set t.image { im with verified := im.verified - 1 } ∧
          u.permit = s.permit ∧ u.service = s.service) ∧
        u.segState t.image t.segment = .failed ∧
        (∀ i g, (i, g) ≠ (t.image, t.segment) → u.segState i g = s.segState i g) ∧
        (∀ x, u.images[t.image]? = some x → x.verified = im.verified - 1) ∧
        (∀ m : Fin 64, holds m = true →
          (s.lines[m].pins = 0 → u.lines[m] = { s.lines[m] with
            state := .free, tag := none, pins := 0, waiters := [], fillClass := none, streamMark := false }) ∧
          (0 < s.lines[m].pins → u.lines[m] = { s.lines[m] with state := .stale, streamMark := false })) ∧
        (∀ m : Fin 64, holds m = false → u.lines[m] = s.lines[m].released gone m) ∧
        s.lruReleased u gone ((List.finRange 64).filter holds) ∧
        (∀ p, u.port p = { s.port p with queue := (s.port p).queue.map fun x =>
          if (x.status.isNone && meets x) = true then { x.withHolds [] with status := some .failed } else x }) ∧
        u.arbiter = { s.arbiter with
          readAhead := s.arbiter.readAhead.filter fun r => !(r.image == t.image && r.segment == t.segment) } ∧
        u.slots = s.slots.set k { s.slots[k] with hold := s.slots[k].hold - 1 } ∧
        u.rescan = { s.rescan with buffer := .empty, tag := none } ∧
        u = { s with
          engine := ⟨s.engine.waiting, none⟩, lines := u.lines, lineLru := u.lineLru, slots := u.slots
          slotLru := s.slotLru.erase k ++ [k], segMap := u.segMap, images := u.images, portA := u.portA, portB := u.portB
          arbiter := u.arbiter, permit := u.permit, service := u.service, rescan := u.rescan })

/-- An image failure in SERVING, with auto-recovery enabled and a recovery region, enters SWITCHING whichever comparison found
it: both ports are HELD with empty queues, the request is clear, the timer stopped, everything in flight discarded, and the
permit TRIPPED (R39, R40, R41, R78, R81, R174, R188; that the holds of discarded fills are released at the entry is log
entry 12). -/
def Obligations.FailureInServingSwitches : Prop :=
  ∀ (s : State) (f : FuseImage) (im : Image) (i : Nat), s.live = true → s.fuseImage = some f → f.autoRecovery = true →
    0 < f.recoveryMiB → s.manifest.state = .serving → s.images[i]? = some im → im.state ≠ .failed →
    s.permit.cause = none →
    (∀ n b e, s.engine.hashing = some ⟨.slot n ⟨i, b⟩, false⟩ → s.store[im.firstStore + b]? = some e →
      sha256 s.slots[n].data ≠ e.digest →
      ∃ u, exec .digestBlockHashDone s = .next u ∧ Switched s u ∧ u.permit.state = .tripped ∧
        u.permit.cause = some ⟨i, .block, b⟩ ∧ u.service.flag .imageFailed = true) ∧
    (∀ n g k, s.engine.hashing = some ⟨.line n ⟨i, g⟩ k, false⟩ → s.segState i g ≠ .failed →
      sha256 s.lines[n].data ≠ slice s.slots[k].data (32 * (g % 128)) 32 →
      ∃ u, exec .segmentHashDone s = .next u ∧ Switched s u ∧ u.permit.state = .tripped ∧
        u.permit.cause = some ⟨i, .segment, g⟩ ∧ u.service.flag .imageFailed = true) ∧
    (∀ g k, s.engine.hashing = some ⟨.rescan ⟨i, g⟩ k, false⟩ → s.segState i g = .verified →
      sha256 s.rescan.data ≠ slice s.slots[k].data (32 * (g % 128)) 32 →
      ∃ u, exec .rescanHashDone s = .next u ∧ Switched s u ∧ u.permit.state = .tripped ∧
        u.permit.cause = some ⟨i, .rescan, g⟩ ∧ u.service.flag .imageFailed = true)

/-! ## Option inputs -/

/-- The first OPTION_SAMPLE since power-on or RESET_N sets the word from the readings with no debounce, counters 0, no event and
no re-evaluation (R47, R50). OPTION_SAMPLE debounces each input on its own: an agreeing reading clears its counter, a
differing one counts, and at the debounce count the bit takes the reading; OPTION_CHANGE is raised if a changed bit is
unmasked; outside SERVING and RECOVERY_SERVING nothing else changes (R46, R47, R48, R51, R58). -/
def Obligations.OptionSamplesAreDebounced : Prop :=
  (∀ (s : State) (levels : Byte), s.live = true → s.options.sampled = false →
     exec (.optionSample levels) s = .next { s with options := { s.options with
       word := levels, counters := Vector.replicate 8 0, sampled := true } }) ∧
  (∀ (s : State) (levels : Byte), s.live = true → s.options.sampled = true →
     let changes := fun k : Fin 8 =>
       levels.getLsbD k ≠ s.options.word.getLsbD k ∧ s.options.debounce ≤ s.options.counters[k] + 1
     ∃ t, exec (.optionSample levels) s = .next t ∧
       (∀ k : Fin 8,
         (levels.getLsbD k = s.options.word.getLsbD k →
           t.options.counters[k] = 0 ∧ t.options.word.getLsbD k = s.options.word.getLsbD k) ∧
         (levels.getLsbD k ≠ s.options.word.getLsbD k → s.options.counters[k] + 1 < s.options.debounce →
           t.options.counters[k] = s.options.counters[k] + 1 ∧ t.options.word.getLsbD k = s.options.word.getLsbD k) ∧
         (changes k → t.options.counters[k] = 0 ∧ t.options.word.getLsbD k = levels.getLsbD k)) ∧
       t.options = { s.options with word := t.options.word, counters := t.options.counters } ∧
       t.service = { s.service with flags := t.service.flags } ∧
       ((∃ k, changes k ∧ s.options.eventMask.getLsbD k = false) → t.service.flag .optionChange = true) ∧
       ((∀ k, changes k → s.options.eventMask.getLsbD k = true) →
         t.service.flag .optionChange = s.service.flag .optionChange) ∧
       (s.isServing = false ∨ (∀ k, ¬ changes k) → (∀ x : Event, x ≠ .optionChange → t.service.flag x = s.service.flag x) ∧
         t = { s with options := t.options, service := t.service }))

/-- A change of the option word in SERVING or RECOVERY_SERVING sets every image's included flag afresh, ends the undecided READs
of the newly excluded images DENIED, which give up their pins and their waiters' places, and drops their read-ahead entries;
decided entries keep their outcomes, and both ports' releases and the permit are judged with the flags as they then stand
(R46, R52, R53, R54, R55, R56, R86, R94, R95, R149, R162; the order in which stream-marked lines reach the least-recent end
is left open, log entry 32). -/
def Obligations.WordChangeReevaluatesInclusion : Prop :=
  ∀ (s : State) (levels : Byte), s.live = true → s.options.sampled = true → s.isServing = true →
    let changes := fun k : Fin 8 =>
      levels.getLsbD k ≠ s.options.word.getLsbD k ∧ s.options.debounce ≤ s.options.counters[k] + 1
    (∃ k, changes k) →
    ∃ t, exec (.optionSample levels) s = .next t ∧
      let holds := fun im : Image => im.conditions.all fun c => t.options.word.getLsbD c.bit.val == (c.sense == .set)
      let leaves := fun i : Nat => match s.images[i]? with
        | some im => im.included && !holds im
        | none => false
      let meets := fun e : Entry => match e.body with
        | .read r => (match r.image with | some i => leaves i | none => false)
        | _ => false
      t.images = s.images.map (fun im => { im with included := holds im }) ∧
      (∀ p, (t.port p).queue = (s.port p).queue.map fun e =>
        if (e.status.isNone && meets e) = true then { e.withHolds [] with status := some .denied } else e) ∧
      (∀ n : Fin 64, t.lines[n] = s.lines[n].released (s.undecidedReads meets) n) ∧
      (s.lineLru.Nodup → s.lruReleased t (s.undecidedReads meets) []) ∧
      t.arbiter = { s.arbiter with readAhead := s.arbiter.readAhead.filter fun r => !leaves r.image } ∧
      (∀ p, t.port p = { s.port p with queue := (t.port p).queue, state := (t.port p).state } ∧ PortJudged s p t) ∧
      ((∃ k, changes k ∧ s.options.eventMask.getLsbD k = false) →
        PermitFollows s.permit (s.service.setFlag .optionChange) t) ∧
      ((∀ k, changes k → s.options.eventMask.getLsbD k = true) → PermitFollows s.permit s.service t) ∧
      t = { s with
        options := t.options, service := t.service, images := t.images, lines := t.lines, lineLru := t.lineLru
        portA := t.portA, portB := t.portB, arbiter := t.arbiter, permit := t.permit }

/-! ## Release and permit timers -/

/-- HOLD_TIMER_EXPIRY: the hold is served, and the port is released exactly when the verifier serves, the port owns an included
image, and each included EAGER image it owns is COMPLETE; otherwise it stays as it was (R147, R149, R150, R151, R154). -/
def Obligations.HoldExpiryJudgesThePort : Prop :=
  ∀ (s : State) (p : Port), s.live = true → (s.port p).state ≠ .released → (s.port p).holdServed = false →
    ∃ x, exec (.holdTimerExpiry p) s = .next (s.modPort p fun u => { u with holdServed := true, state := x }) ∧
      (x = .released ↔ (s.manifest.state = .serving ∨ s.manifest.state = .recoveryServing) ∧
        (∃ im ∈ s.images, im.included = true ∧ im.owner.sees p = true) ∧
        ∀ im ∈ s.images, im.included = true → im.owner.sees p = true → im.releaseMode = .eager → im.state = .complete) ∧
      (x ≠ .released → x = (s.port p).state)

/-- RISE_DELAY_EXPIRY: the pending line becomes active; the next line's delay starts, or at a delay of 0 that line becomes
active too; with PL2 the permit enters GRANTED and PERMIT_CHANGE is raised (R161, R165, R173). FALL_DELAY_EXPIRY: the
pending line becomes inactive; the next lower line's delay starts, or at a delay of 0 that line falls too; with PL0 the
permit enters WITHHELD with PERMIT_CHANGE, and rises at once if it may (R161, R164, R167, R173). -/
def Obligations.PermitLinesStepThroughTheirDelays : Prop :=
  (∀ (s : State) (d : Delays) (x : SequenceTimer), s.live = true → s.permit.state = .rising → s.permit.timer = some x →
     s.permit.delays = some d →
     let a := Drive.active
     let w := s.permit.lines
     let waits := fun (lines : PerLine Drive) (l : PermitLine) (units : Nat) =>
       exec .riseDelayExpiry s = .next { s with permit := { s.permit with lines := lines, timer := some ⟨l, units⟩ } }
     let granted := fun lines : PerLine Drive => exec .riseDelayExpiry s = .next { s with
       permit := { s.permit with lines := lines, timer := none, state := .granted }
       service := s.service.setFlag .permitChange }
     (x.line = .pl0 → d.rise.pl1 ≠ 0 → waits ⟨a, w.pl1, w.pl2⟩ .pl1 d.rise.pl1) ∧
     (x.line = .pl0 → d.rise.pl1 = 0 → d.rise.pl2 ≠ 0 → waits ⟨a, a, w.pl2⟩ .pl2 d.rise.pl2) ∧
     (x.line = .pl0 → d.rise.pl1 = 0 → d.rise.pl2 = 0 → granted ⟨a, a, a⟩) ∧
     (x.line = .pl1 → d.rise.pl2 ≠ 0 → waits ⟨w.pl0, a, w.pl2⟩ .pl2 d.rise.pl2) ∧
     (x.line = .pl1 → d.rise.pl2 = 0 → granted ⟨w.pl0, a, a⟩) ∧
     (x.line = .pl2 → granted ⟨w.pl0, w.pl1, a⟩)) ∧
  (∀ (s : State) (d : Delays) (x : SequenceTimer), s.live = true → s.permit.state = .falling → s.permit.timer = some x →
     s.permit.delays = some d →
     let z := Drive.inactive
     let w := s.permit.lines
     let waits := fun (lines : PerLine Drive) (l : PermitLine) (units : Nat) =>
       exec .fallDelayExpiry s = .next { s with permit := { s.permit with lines := lines, timer := some ⟨l, units⟩ } }
     let ends := fun lines : PerLine Drive =>
       (s.mayRise = false → exec .fallDelayExpiry s = .next { s with
         permit := { s.permit with lines := lines, timer := none, state := .withheld }
         service := s.service.setFlag .permitChange }) ∧
       (s.mayRise = true → d.rise.pl0 ≠ 0 → exec .fallDelayExpiry s = .next { s with
         permit := { s.permit with lines := lines, timer := some ⟨.pl0, d.rise.pl0⟩, state := .rising }
         service := s.service.setFlag .permitChange })
     (x.line = .pl2 → d.fall.pl1 ≠ 0 → waits ⟨w.pl0, w.pl1, z⟩ .pl1 d.fall.pl1) ∧
     (x.line = .pl2 → d.fall.pl1 = 0 → d.fall.pl0 ≠ 0 → waits ⟨w.pl0, z, z⟩ .pl0 d.fall.pl0) ∧
     (x.line = .pl2 → d.fall.pl1 = 0 → d.fall.pl0 = 0 → ends ⟨z, z, z⟩) ∧
     (x.line = .pl1 → d.fall.pl0 ≠ 0 → waits ⟨w.pl0, z, w.pl2⟩ .pl0 d.fall.pl0) ∧
     (x.line = .pl1 → d.fall.pl0 = 0 → ends ⟨z, z, w.pl2⟩) ∧
     (x.line = .pl0 → ends ⟨z, w.pl1, w.pl2⟩))

/-! ## Frames and queues -/

/-- CS_N_FALL: on a RELEASED port the status byte is formed and the head's ready response bound; on a port that is HELD or
REBOOTING the frame is one that the part ignores. While a live frame runs CS_N cannot fall (R124, R126, R131, R150). -/
def Obligations.FallOfChipSelectBindsTheHead : Prop :=
  ∀ (s : State) (p : Port), s.live = true → (s.port p).frameLive = false → (s.port p).queue.length ≤ 4 →
    ((s.port p).state ≠ .released → exec (.csNFall p) s =
      .next (s.modPort p fun u => { u with frame := some ⟨false, 0, none, false, none⟩ })) ∧
    ((s.port p).state = .released → ∃ x bound, exec (.csNFall p) s =
        .next (s.modPort p fun u => { u with frame := some ⟨true, x, bound, false, none⟩ }) ∧
      (x &&& 7).toNat = 4 - (s.port p).queue.length ∧ x.getLsbD 3 = s.readyLine p ∧
      x.getLsbD 4 = (s.port p).overrun ∧ x.getLsbD 5 = (s.port p).dropped ∧ x.getLsbD 6 = (s.port p).badFrame ∧
      x.getLsbD 7 = (p == .b && s.permitRequest) ∧
      (s.readyLine p = false → bound = none) ∧
      (s.readyLine p = true → ∃ e es, (s.port p).queue = e :: es ∧ e.status.isSome = true ∧ bound = some e.id))

/-- A frame that began while its port was not RELEASED, or that the port left RELEASED during, is ignored whatever its command:
it ends and nothing else changes. In the first nothing was driven; in the second what the frame would have been sent, up to
the cut (R124, R126, R131, R150; that a frame's command with CS_N high stands for the whole frame is log entry 6, and after
how many bytes the cut came is a free value, log entry 34). A MALFORMED_FRAME on a port that takes it is ignored: BADFRAME
is set, PORT_FAULT raised, and filler follows the status byte (R125, R126, R127). A queued frame that finds 4 entries in its
queue is dropped: OVERRUN is set, PORT_FAULT raised, and nothing of it is kept (R127, R128). -/
def Obligations.IgnoredMalformedAndOverrunFrames : Prop :=
  (∀ (s : State) (p : Port) (c : Instr), endsFrame p c →
     let ends := fun d : Driven => exec c s = .next (s.modPort p fun u => { u with frame := none, sent := d })
     (∀ f, (s.port p).frame = some f → f.live = false → f.cut = none → ends .nothing) ∧
     ((s.port p).frame = none → (s.port p).state ≠ .released → ends .nothing) ∧
     ∀ f k b, (s.port p).frame = some f → f.live = false → f.cut = some (k, b) →
       ((∀ n, c ≠ .collect p n) → ends (.untilCut k [f.status])) ∧
       ∀ n, c = .collect p n → ends (.untilCut k ((f.status :: b).take n ++ zeros (n - (b.length + 1))))) ∧
  (∀ (s : State) (p : Port) (f : SpiFrame) (received : List Bool), s.takesFrame p f → f.heldExpiry = false →
     parseFrame (wholeBytes received) = none →
     exec (.malformedFrame p received) s = .next { s.modPort p (fun u => { u with
       frame := none, badFrame := true, sent := .bytes [f.status] }) with
       service := s.service.setFlag .portFault }) ∧
  (∀ (s : State) (p : Port) (f : SpiFrame) (c : Instr) (tag : Byte) (x : BitVec 32) (n : BitVec 16) (y : Byte)
     (data : Bytes), s.takesFrame p f → f.heldExpiry = false → (s.port p).queue.length = 4 →
     c = .read p tag x n y ∨ c = .translate p tag x ∨ c = .write p tag x data ∨ c = .erase p tag x ∨
       p = .a ∧ (c = .permitOn p ∨ c = .permitOff p) →
     exec c s = .next { s.modPort p (fun u => { u with frame := none, overrun := true, sent := .bytes [f.status] }) with
       service := s.service.setFlag .portFault })

/-- A frame on one port leaves the other port as it is, and changes nothing of the verifier, the fuses, the images and their
segments, the digest slots, the engine, the flash controller, the option inputs and the rescan unit (R99, R124, R129, R145). -/
def Obligations.FramesStayOnTheirPort : Prop :=
  ∀ (s t : State) (p : Port) (c : Instr), endsFrame p c → exec c s = .next t →
    t.port (otherPort p) = s.port (otherPort p) ∧
    t = { s with
      portA := t.portA, portB := t.portB, lines := t.lines, lineLru := t.lineLru, arbiter := t.arbiter
      permitRequest := t.permitRequest, permit := t.permit, service := t.service, nextEntry := t.nextEntry } ∧
    (p = .a → t.permitRequest = s.permitRequest ∧ t.permit = s.permit)

/-- READ refused at its translation: BADREQ for a length of 0, DENIED where no window holds the address or the window's image is
excluded; the entry is queued at the tail, decided, and nothing else changes (R128, R129, R137, R138, R146). READ whose
lookups reach a FAILED segment, or a FAILED block with no VALID line of the segment, is queued FAILED with no hold left, and
lists nothing ahead; every line keeps its state, tag, data and pins, and its waiters, entries' serial numbers being new
(R80, R84, R94, R116, R146). -/
def Obligations.ReadsRefusedAndFailed : Prop :=
  (∀ (s : State) (p : Port) (f : SpiFrame) (tag : Byte) (x : BitVec 32) (n : BitVec 16) (y : Byte) (r : RespStatus),
     s.takesFrame p f → f.heldExpiry = false → (s.port p).queue.length < 4 →
     (n = 0 ∧ r = .badReq) ∨ (n ≠ 0 ∧ r = .denied ∧
       ((∀ im ∈ s.images, im.owner.sees p = true → x.toNat < im.windowBase ∨ im.windowBase + im.windowSpan ≤ x.toNat) ∨
         ∃ i im, s.windowHolds p x.toNat i im ∧ im.included = false)) →
     exec (.read p tag x n y) s = .next { s.modPort p (fun u => { u with
       frame := none, sent := .bytes [f.status]
       queue := u.queue ++ [⟨s.nextEntry, tag,
         .read ⟨x.toNat, n.toNat, y.getLsbD 0, none, 0, false, [], []⟩, some r, false⟩] }) with
       nextEntry := s.nextEntry + 1 }) ∧
  (∀ (s : State) (p : Port) (f : SpiFrame) (tag : Byte) (x : BitVec 32) (n : BitVec 16) (y : Byte) (i d : Nat) (im : Image)
     (ps : List Piece), s.takesFrame p f → f.heldExpiry = false → (s.port p).queue.length < 4 → n ≠ 0 →
     s.windowHolds p x.toNat i im → im.included = true → d = im.deliveredLength x.toNat (min n.toNat 8192) →
     ps = im.pieces x.toNat d →
     (∃ q ∈ ps, s.segState i q.segment = .failed ∨ s.blockFailed i (q.segment / 128) = true ∧
       ∀ k : Fin 64, s.lines[k].tag = some ⟨i, q.segment⟩ → s.lines[k].state ≠ .valid) →
     ∃ t, exec (.read p tag x n y) s = .next t ∧
       t.port p = { s.port p with
         frame := none, sent := .bytes [f.status], queue := (s.port p).queue ++ [⟨s.nextEntry, tag,
           .read ⟨x.toNat, n.toNat, y.getLsbD 0, some i, d, decide (d < n.toNat), ps, []⟩, some .failed, false⟩] } ∧
       (∀ k : Fin 64, t.lines[k].state = s.lines[k].state ∧ t.lines[k].tag = s.lines[k].tag ∧
         t.lines[k].data = s.lines[k].data ∧ t.lines[k].pins = s.lines[k].pins ∧
         ((∀ w ∈ s.lines[k].waiters, w.entry ≠ s.nextEntry) → t.lines[k].waiters = s.lines[k].waiters)) ∧
       t.arbiter = s.arbiter ∧ t.port (otherPort p) = s.port (otherPort p) ∧
       t = { s with
         portA := t.portA, portB := t.portB, lines := t.lines, lineLru := t.lineLru, nextEntry := s.nextEntry + 1 })

/-- READ of an included image, its delivered length clamped to 8,192, to the contents of a LINEAR image or to the end of a
MIRROR span: the entry holds each distinct segment of its pieces once, pinned on its VALID line, waiting on its fill, or
outstanding, and is decided OK or SHORT once all are pinned; each pinned line goes to the most-recent end; then segments s +
1 to min(s + D, N - 1) after the last piece's join the read-ahead list in order, while it holds fewer than 8, each that has
no line FILLING, HASHING or VALID, is not FAILED, lies in no FAILED block and is not listed (R84, R85, R86, R93, R95, R116,
R129, R137, R138, R139, R140, R146). -/
def Obligations.ReadHoldsItsSegments : Prop :=
  ∀ (s : State) (p : Port) (f : SpiFrame) (tag : Byte) (x : BitVec 32) (n : BitVec 16) (y : Byte) (i d : Nat) (im : Image),
    s.takesFrame p f → f.heldExpiry = false → (s.port p).queue.length < 4 → n ≠ 0 → s.windowHolds p x.toNat i im →
    im.included = true → (im.windowMode = .linear → d = min (min n.toNat 8192)
      (im.segments * 4096 - (x.toNat - im.windowBase))) →
    (im.windowMode = .mirror → d = min (min n.toNat 8192) (im.windowBase + im.windowSpan - x.toNat)) →
    (∀ q ∈ im.pieces x.toNat d, s.lookupFails i q.segment = false) →
    ∃ t e r, exec (.read p tag x n y) s = .next t ∧
      t.port p = { s.port p with frame := none, sent := .bytes [f.status], queue := (s.port p).queue ++ [e] } ∧
      e = ⟨s.nextEntry, tag, .read r, if r.holds.all (fun h => h.hold.isPinned) then
        some (if d < n.toNat then .short else .ok) else none, false⟩ ∧
      r = { r with
        address := x.toNat, length := n.toNat, stream := y.getLsbD 0, image := some i, delivered := d
        short := decide (d < n.toNat), pieces := im.pieces x.toNat d } ∧
      (r.holds.map (·.segment)).Nodup ∧ (∀ g, (∃ h ∈ r.holds, h.segment = g) ↔ ∃ q ∈ r.pieces, q.segment = g) ∧
      (∀ h ∈ r.holds,
        (∀ k, h.hold = .pinned k → s.lines[k].state = .valid ∧ s.lines[k].tag = some ⟨i, h.segment⟩) ∧
        (∀ k, h.hold = .waiting k → (s.lines[k].state = .filling ∨ s.lines[k].state = .hashing) ∧
          s.lines[k].tag = some ⟨i, h.segment⟩) ∧
        (h.hold = .outstanding → ∀ k : Fin 64, s.lines[k].tag = some ⟨i, h.segment⟩ →
          s.lines[k].state = .free ∨ s.lines[k].state = .stale)) ∧
      (∀ k : Fin 64, t.lines[k] = { s.lines[k] with
        pins := s.lines[k].pins + r.holds.countP fun h => h.hold == .pinned k
        waiters := s.lines[k].waiters ++ (r.holds.filter fun h => h.hold == .waiting k).map fun h =>
          ⟨p, s.nextEntry, r.pieces.filter fun q => q.segment == h.segment⟩
        streamMark := s.lines[k].streamMark && (y.getLsbD 0 || !r.holds.any fun h => h.hold == .pinned k) }) ∧
      t.lineLru = r.holds.foldl (fun l h => match h.hold with | .pinned k => l.erase k ++ [k] | _ => l) s.lineLru ∧
      (∀ q, r.pieces.getLast? = some q →
        let ahead := ((List.range im.readAhead).map fun j => q.segment + 1 + j).filter fun g =>
          decide (g < im.segments) && ((List.finRange 64).all fun k : Fin 64 => !(s.lines[k].state.present &&
            s.lines[k].tag == some ⟨i, g⟩)) && s.segState i g != .failed && !s.blockFailed i (g / 128) &&
          s.arbiter.readAhead.all fun a => !(a.image == i && a.segment == g)
        let listed := (ahead.take (8 - s.arbiter.readAhead.length)).map fun g => (⟨i, g, p⟩ : ReadAhead)
        t.arbiter = { s.arbiter with readAhead := s.arbiter.readAhead ++ listed }) ∧
      (r.pieces = [] → t.arbiter = s.arbiter) ∧
      t.port (otherPort p) = s.port (otherPort p) ∧
      t = { s with
        portA := t.portA, portB := t.portB, lines := t.lines, lineLru := t.lineLru, arbiter := t.arbiter
        nextEntry := s.nextEntry + 1 }

/-- The pieces of a READ deliver exactly its bytes in order: byte j comes from offset o + j of the contents, wrapping at their
end in a MIRROR window; no piece is empty or crosses a segment, and there are at most three (R139, R140). -/
def Obligations.PiecesCoverTheRead : Prop :=
  ∀ (im : Image) (x n : Nat), 1 ≤ im.segments → im.windowBase ≤ x → x < im.windowBase + im.windowSpan →
    (im.windowMode = .linear → im.windowSpan = im.segments * 4096) → n ≤ 8192 →
    let d := im.deliveredLength x n
    let z := im.segments * 4096
    (im.pieces x d).flatMap (fun q => (List.range q.length).map fun j => q.segment * 4096 + q.start + j) =
        (List.range d).map (fun j => (x - im.windowBase + j) % z) ∧
      (∀ q ∈ im.pieces x d, 1 ≤ q.length ∧ q.start + q.length ≤ 4096 ∧ q.segment < im.segments) ∧
      (im.pieces x d).length ≤ 3 ∧ (1 ≤ n → 1 ≤ d) ∧ d ≤ n

/-- TRANSLATE is queued decided OK with its record: none found, or the image, its included flag, the segment and offset after
the MIRROR wrap, the mode, the segment's state and its residency; nothing else changes (R98, R128, R129, R141, R142). -/
def Obligations.TranslateRecordsTheWindow : Prop :=
  ∀ (s : State) (p : Port) (f : SpiFrame) (tag : Byte) (x : BitVec 32), s.takesFrame p f → f.heldExpiry = false →
    (s.port p).queue.length < 4 →
    ∃ rec, exec (.translate p tag x) s = .next { s.modPort p (fun u => { u with
        frame := none, sent := .bytes [f.status]
        queue := u.queue ++ [⟨s.nextEntry, tag, .translate x.toNat rec, some .ok, false⟩] }) with
        nextEntry := s.nextEntry + 1 } ∧
      ((∀ im ∈ s.images, im.owner.sees p = true → x.toNat < im.windowBase ∨ im.windowBase + im.windowSpan ≤ x.toNat) →
        rec = none) ∧
      ∀ i im o, s.windowHolds p x.toNat i im → o = (match im.windowMode with
          | .linear => x.toNat - im.windowBase
          | .mirror => (x.toNat - im.windowBase) % (im.segments * 4096)) →
        ∃ w, rec = some ⟨i, im.included, o / 4096, o % 4096, im.windowMode, s.segState i (o / 4096), w⟩ ∧
          (w = .valid ↔ ∃ k : Fin 64, s.lines[k].state = .valid ∧ s.lines[k].tag = some ⟨i, o / 4096⟩) ∧
          (w = .stale ↔ (∀ k : Fin 64, s.lines[k].tag = some ⟨i, o / 4096⟩ → s.lines[k].state ≠ .valid) ∧
            ∃ k : Fin 64, s.lines[k].state = .stale ∧ s.lines[k].tag = some ⟨i, o / 4096⟩) ∧
          (w = .inFlight ↔ (∀ k : Fin 64, s.lines[k].tag = some ⟨i, o / 4096⟩ →
              s.lines[k].state ≠ .valid ∧ s.lines[k].state ≠ .stale) ∧
            ∃ k : Fin 64, (s.lines[k].state = .filling ∨ s.lines[k].state = .hashing) ∧
              s.lines[k].tag = some ⟨i, o / 4096⟩) ∧
          (w = .free ↔ ∀ k : Fin 64, s.lines[k].tag = some ⟨i, o / 4096⟩ → s.lines[k].state = .free)

/-- WRITE and ERASE at their taking: BADREQ on Port B and for a WRITE with no data or past the end of its 256-byte page; on Port
A DENIED unless the address lies in a bank that the verifier state lets be written; else the entry waits undecided (R1,
R121, R123, R128, R129). PERMIT_ON and PERMIT_OFF on Port A are queued as entries with tag 0, decided BADREQ (R128, R129,
R144). -/
def Obligations.WriteEraseAndPortAPermitAreJudged : Prop :=
  (∀ (s : State) (p : Port) (f : SpiFrame) (m : FuseImage) (tag : Byte) (x : BitVec 32) (data : Bytes),
     s.takesFrame p f → f.heldExpiry = false → (s.port p).queue.length < 4 → s.fuseImage = some m →
     let bank0 := x.toNat < m.bankBytes
     let bank1 := m.bankBytes ≤ x.toNat ∧ x.toNat < m.flashBytes - m.recoveryBytes
     let allowed := x.toNat < m.flashBytes ∧ x.toNat < m.flashBytes - m.recoveryBytes ∧
       (s.manifest.state = .recoveryServing ∨ s.manifest.state = .serving ∧
         ((bank1 ∧ ∀ r, s.manifest.summary ≠ some ⟨.bank .bank1, r⟩) ∨
           (bank0 ∧ ∀ r, s.manifest.summary ≠ some ⟨.bank .bank0, r⟩)))
     let badPage := data = [] ∨ 256 < x.toNat % 256 + data.length
     ∃ a b : Option RespStatus,
       exec (.write p tag x data) s = .next { s.modPort p (fun u => { u with
         frame := none, sent := .bytes [f.status]
         queue := u.queue ++ [⟨s.nextEntry, tag, .write x.toNat (data.take 256), a, false⟩] }) with
         nextEntry := s.nextEntry + 1 } ∧
       exec (.erase p tag x) s = .next { s.modPort p (fun u => { u with
         frame := none, sent := .bytes [f.status]
         queue := u.queue ++ [⟨s.nextEntry, tag, .erase x.toNat, b, false⟩] }) with
         nextEntry := s.nextEntry + 1 } ∧
       (p = .b → a = some .badReq ∧ b = some .badReq) ∧
       (p = .a → (badPage → a = some .badReq) ∧ (¬ badPage → a = b) ∧
         (¬ allowed → b = some .denied) ∧ (allowed → b = none))) ∧
  (∀ (s : State) (f : SpiFrame) (c : Instr) (b : Body), s.takesFrame .a f → f.heldExpiry = false →
     s.portA.queue.length < 4 → (c = .permitOn .a ∧ b = .permitOn) ∨ (c = .permitOff .a ∧ b = .permitOff) →
     exec c s = .next { s with
       portA := { s.portA with
         frame := none, sent := .bytes [f.status], queue := s.portA.queue ++ [⟨s.nextEntry, 0, b, some .badReq, false⟩] }
       nextEntry := s.nextEntry + 1 })

/-- PERMIT_ON and PERMIT_OFF on Port B set and clear the request, and the permit follows the state rules: from WITHHELD it rises
when eligible, a request lost in GRANTED or RISING starts the fall of the highest active line, or from RISING with no line
active returns to WITHHELD; FALLING and TRIPPED stand (R144, R163, R164, R166, R167, R168, R172). -/
def Obligations.PermitFramesOnPortBMoveTheRequest : Prop :=
  ∀ (s : State) (f : SpiFrame) (d : Delays), s.takesFrame .b f → f.heldExpiry = false → s.permit.delays = some d →
    let on : State := { s with portB := { s.portB with frame := none, sent := .bytes [f.status] }, permitRequest := true }
    let off : State := { on with permitRequest := false }
    let act := fun l => s.permit.lines.get l = .active
    let falls := fun l => exec (.permitOff .b) s =
      .next { off with permit := { s.permit with state := .falling, timer := some ⟨l, d.fall.get l⟩ } }
    (s.permit.state = .falling ∨ s.permit.state = .tripped ∨
        ((s.permit.state = .granted ∨ s.permit.state = .rising) ∧ s.eligible = true) ∨
        (s.permit.state = .withheld ∧ s.eligible = false) → exec (.permitOn .b) s = .next on) ∧
    (s.permit.state = .withheld → s.eligible = true → d.rise.pl0 ≠ 0 → exec (.permitOn .b) s =
      .next { on with permit := { s.permit with state := .rising, timer := some ⟨.pl0, d.rise.pl0⟩ } }) ∧
    (s.permit.state = .withheld → s.eligible = true → d.rise = ⟨0, 0, 0⟩ → exec (.permitOn .b) s = .next { on with
      permit := { s.permit with state := .granted, lines := ⟨.active, .active, .active⟩, timer := none }
      service := s.service.setFlag .permitChange }) ∧
    (s.permit.state = .granted → s.permit.lines = ⟨.active, .active, .active⟩ → d.fall = ⟨0, 0, 0⟩ →
      exec (.permitOff .b) s = .next { off with
        permit := { s.permit with state := .withheld, lines := ⟨.inactive, .inactive, .inactive⟩, timer := none }
        service := s.service.setFlag .permitChange }) ∧
    (s.permit.state = .withheld ∨ s.permit.state = .falling ∨ s.permit.state = .tripped →
      exec (.permitOff .b) s = .next off) ∧
    (s.permit.state = .granted ∨ s.permit.state = .rising →
      (act .pl2 → d.fall.pl2 ≠ 0 → falls .pl2) ∧
      (¬ act .pl2 → act .pl1 → d.fall.pl1 ≠ 0 → falls .pl1) ∧
      (¬ act .pl2 → ¬ act .pl1 → act .pl0 → d.fall.pl0 ≠ 0 → falls .pl0)) ∧
    (s.permit.state = .rising → ¬ act .pl2 → ¬ act .pl1 → ¬ act .pl0 → exec (.permitOff .b) s =
      .next { off with permit := { s.permit with state := .withheld, timer := none } })

/-- COLLECT takes the response bound at the fall of CS_N out of the queue and sends it after the status byte: the header of tag,
status and length, then the pieces' bytes from their pinned lines, or the translation record, or nothing, and filler after
it (R131, R146; 12_formats.md, Response header and Translation record). The end of the COLLECT frame releases the pin of a
READ's one segment: a STALE line left at 0 becomes FREE; a VALID line keeps its place, but one left at 0 by a STREAM
collection, or with its mark set, goes to the least-recent end with its mark cleared, and one left above 0 by a STREAM
collection has its mark set (R85, R94, R95). -/
def Obligations.CollectDeliversAndReleases : Prop :=
  (∀ (s : State) (p : Port) (f : SpiFrame) (clocked : Nat) (e : Entry) (es : List Entry) (x : RespStatus),
     s.takesFrame p f → f.heldExpiry = false → (s.port p).queue = e :: es → e.status = some x → f.bound = some e.id →
     let code : Byte := match x with
       | .ok => 0x00 | .short => 0x01 | .denied => 0x02 | .failed => 0x03 | .badReq => 0x04 | .done => 0x05
       | .writeFault => 0x06 | .timeout => 0x07 | .none => 0x0F
     ∃ t response, exec (.collect p clocked) s = .next t ∧
       t.port p = { s.port p with
         frame := none, queue := es
         sent := .bytes ((f.status :: response).take clocked ++ zeros (clocked - (response.length + 1))) } ∧
       (∀ r, e.body = .read r → x = .ok ∨ x = .short →
         response = [e.tag, code, BitVec.ofNat 8 (r.delivered / 256), BitVec.ofNat 8 r.delivered] ++
           r.pieces.flatMap (s.pieceBytes r.holds)) ∧
       (∀ a, e.body = .translate a none → x = .ok → response = [e.tag, 0, 0, 10] ++ zeros 10) ∧
       (∀ a w, e.body = .translate a (some w) → x = .ok → response = [e.tag, 0, 0, 10, 1, BitVec.ofNat 8 w.image,
           (if w.included = true then 1 else 0), (match w.mode with | .linear => 1 | .mirror => 2),
           BitVec.ofNat 8 (w.segment / 256), BitVec.ofNat 8 w.segment, BitVec.ofNat 8 (w.offset / 256),
           BitVec.ofNat 8 w.offset, (match w.segState with | .unverified => 0 | .verified => 1 | .failed => 2),
           (match w.residency with | .free => 0 | .inFlight => 1 | .valid => 2 | .stale => 3)]) ∧
       (x ≠ .ok → x ≠ .short → response = [e.tag, code, 0, 0]) ∧
       (e.holds = [] → t.lines = s.lines ∧ t.lineLru = s.lineLru) ∧
       t.port (otherPort p) = s.port (otherPort p) ∧
       t = { s with portA := t.portA, portB := t.portB, lines := t.lines, lineLru := t.lineLru }) ∧
  (∀ (s : State) (p : Port) (f : SpiFrame) (clocked : Nat) (e : Entry) (es : List Entry) (x : RespStatus) (r : ReadBody)
     (g : Nat) (n : Fin 64), s.takesFrame p f → f.heldExpiry = false → (s.port p).queue = e :: es → e.status = some x →
     f.bound = some e.id → e.body = .read r → r.holds = [⟨g, .pinned n⟩] →
     ∃ t, exec (.collect p clocked) s = .next t ∧ (∀ m : Fin 64, m ≠ n → t.lines[m] = s.lines[m]) ∧
       (s.lines[n].state = .stale → s.lines[n].pins = 1 → t.lines[n].state = .free ∧ t.lines[n].tag = none ∧
         t.lineLru = s.lineLru.erase n) ∧
       (s.lines[n].state = .stale → 2 ≤ s.lines[n].pins →
         t.lines[n] = { s.lines[n] with pins := s.lines[n].pins - 1 } ∧ t.lineLru = s.lineLru) ∧
       (s.lines[n].state = .valid → s.lines[n].pins = 1 → r.stream = false → s.lines[n].streamMark = false →
         t.lines[n] = { s.lines[n] with pins := 0 } ∧ t.lineLru = s.lineLru) ∧
       (s.lines[n].state = .valid → s.lines[n].pins = 1 → r.stream = true ∨ s.lines[n].streamMark = true →
         t.lines[n] = { s.lines[n] with pins := 0, streamMark := false } ∧ t.lineLru = n :: s.lineLru.erase n) ∧
       (s.lines[n].state = .valid → 2 ≤ s.lines[n].pins →
         t.lines[n] = { s.lines[n] with
           pins := s.lines[n].pins - 1, streamMark := r.stream || s.lines[n].streamMark } ∧ t.lineLru = s.lineLru))

/-- A COLLECT frame that begins while the head's response is not ready, or while the queue is empty, binds nothing: it sends the
status byte and a response header with tag 0, status NONE and length 0, and removes nothing; a response that became ready
meanwhile has its collect window running and stays at the head with the ready line high (R132). -/
def Obligations.UnboundCollectSendsNone : Prop :=
  ∀ (s : State) (p : Port),
    (s.live = true → (s.port p).state = .released → (s.port p).frameLive = false →
      (s.port p).queue = [] ∨ s.readyLine p = false →
      ∃ x, exec (.csNFall p) s =
        .next (s.modPort p fun u => { u with frame := some ⟨true, x, none, false, none⟩ }) ∧ x = s.statusByte p) ∧
    ∀ (f : SpiFrame) (clocked : Nat), s.takesFrame p f → f.bound = none → f.heldExpiry = false →
      (s.readyLine p = true → (s.port p).windowRuns = true) ∧
      ∃ t, exec (.collect p clocked) s = .next t ∧
        t = (s.modPort p fun u => { u with
          frame := none
          sent := .bytes ([f.status, 0x00, 0x0F, 0x00, 0x00].take clocked ++ zeros (clocked - 5)) }) ∧
        t.readyLine p = s.readyLine p ∧ (s.readyLine p = true → (t.port p).windowRuns = true)

/-- A STATUS frame sends the status byte and then filler for as long as the master clocks, touches no queue entry, and clears
the sticky flags its status byte reported set, keeping those it reported clear; no other frame clears a flag (R126, R135). -/
def Obligations.StatusFrameClearsReportedFlags : Prop :=
  ∀ (s : State) (p : Port),
    (∀ f, s.takesFrame p f → f.heldExpiry = false → ∃ t, exec (.status p) s = .next t ∧
      t = (s.modPort p fun u => { u with
        frame := none, sent := .bytes [f.status]
        overrun := u.overrun && !f.status.getLsbD 4
        dropped := u.dropped && !f.status.getLsbD 5
        badFrame := u.badFrame && !f.status.getLsbD 6 }) ∧
      (t.port p).sent.byte 0 = some f.status ∧ ∀ k, (t.port p).sent.byte (k + 1) = some 0x00) ∧
    ∀ c t, endsFrame p c → c ≠ .status p → exec c s = .next t →
      ((s.port p).overrun = true → (t.port p).overrun = true) ∧
      ((s.port p).dropped = true → (t.port p).dropped = true) ∧
      ((s.port p).badFrame = true → (t.port p).badFrame = true)

/-- REBOOT of a RELEASED port: it enters REBOOTING with its line asserted, its hold afresh, its queue empty and its read-ahead
entries gone; each removed READ gives up its pins and its waiter's places, and a line that none of them holds is unchanged;
lines being filled keep state, tag and data, and the flash operation and the digest engine go on; its flags are kept, on
Port B the request is cleared and the permit follows the state rules, and nothing of the other port changes (R86, R94, R95,
R99, R117, R136, R145, R147, R154, R163, R174; the order in which stream-marked lines reach the least-recent end is left
open, log entry 32). -/
def Obligations.RebootEmptiesThePort : Prop :=
  ∀ (s : State) (p : Port) (f : SpiFrame), s.takesFrame p f →
    let gone := (s.port p).queue.map fun e => (p, e)
    ∃ t, exec (.reboot p) s = .next t ∧
      t.port p = { s.port p with
        state := .rebooting, queue := [], holdServed := false, frame := none, sent := .bytes [f.status] } ∧
      t.resetReleased p = false ∧ t.readyLine p = false ∧
      (∀ n : Fin 64, t.lines[n] = s.lines[n].released gone n ∧
        (s.lines[n].state = .filling ∨ s.lines[n].state = .hashing → t.lines[n].state = s.lines[n].state ∧
          t.lines[n].tag = s.lines[n].tag ∧ t.lines[n].data = s.lines[n].data) ∧
        ((∀ e ∈ (s.port p).queue, ∀ h ∈ e.holds, h.hold ≠ .pinned n ∧ h.hold ≠ .waiting n) → t.lines[n] = s.lines[n])) ∧
      (s.lineLru.Nodup → s.lruReleased t gone []) ∧
      t.arbiter = { s.arbiter with readAhead := s.arbiter.readAhead.filter fun r => !(r.origin == p) } ∧
      (p = .b → t.permitRequest = false ∧ PermitFollows s.permit s.service t) ∧
      (p = .a → t.permitRequest = s.permitRequest ∧ t.permit = s.permit ∧ t.service = s.service) ∧
      t.port (otherPort p) = s.port (otherPort p) ∧
      t = { s with
        portA := t.portA, portB := t.portB, lines := t.lines, lineLru := t.lineLru, arbiter := t.arbiter
        permitRequest := t.permitRequest, permit := t.permit, service := t.service }

/-- COLLECT_WINDOW_EXPIRY of a ready head response: it is dropped with its pins released, DROPPED set and PORT_FAULT raised,
unless it is bound to a running frame, when the expiry is held. Held, it is taken at the end of that frame, whatever its
command, after the frame's own effect, but for COLLECT, which delivers the response and abandons it, and REBOOT, which
empties the queue (R94, R95, R127, R131, R133, R134, R136; that the held expiry comes after the frame's own effect is log
entry 14). -/
def Obligations.CollectWindowDropsOrIsHeld : Prop :=
  ∀ (s : State) (p : Port) (e : Entry) (es : List Entry) (x : RespStatus), s.live = true →
    (s.port p).queue = e :: es → e.status = some x →
    let dropsFrom := fun (c : Instr) (v : State) => ∃ t, exec c s = .next t ∧
      (∀ n : Fin 64, t.lines[n] = v.lines[n].released [(p, e)] n) ∧ (v.lineLru.Nodup → v.lruReleased t [(p, e)] []) ∧
      t = { v.modPort p (fun u => { u with queue := u.queue.tail, dropped := true }) with
        service := v.service.setFlag .portFault, lines := t.lines, lineLru := t.lineLru }
    (∀ f, (s.port p).frame = some f → f.live = true → f.bound = some e.id → f.heldExpiry = false →
      exec (.collectWindowExpiry p) s =
        .next (s.modPort p fun u => { u with frame := some { f with heldExpiry := true } })) ∧
    ((s.port p).frameLive = false ∨ (∃ f, (s.port p).frame = some f ∧ f.bound ≠ some e.id) →
      (∀ f, (s.port p).frame = some f → f.heldExpiry = false) → dropsFrom (.collectWindowExpiry p) s) ∧
    (∀ f, (s.port p).frame = some f → f.live = true → f.bound = some e.id → f.heldExpiry = true →
      (∀ c v, endsFrame p c → (∀ k, c ≠ .collect p k) → c ≠ .reboot p →
        exec c (s.modPort p fun u => { u with frame := some { f with heldExpiry := false } }) = .next v → dropsFrom c v) ∧
      ((∀ e' ∈ es.head?, e'.id ≠ e.id) → ∀ clocked, ∃ t, exec (.collect p clocked) s = .next t ∧ (t.port p).queue = es ∧
        (t.port p).dropped = (s.port p).dropped ∧ t.service = s.service))

/-- The bits a port receives make whole bytes, eight to a byte, most significant bit first, a partial byte at the end discarded.
The bytes of a frame spell that frame and its command, and for every frame but a WRITE whatever follows its header is
ignored; a run of bytes cut short of its header spells none, nor does one that begins with none of the nine command codes,
and bits that spell none are a malformed frame (R125, R202; 12_formats.md, Port frames and responses). -/
def Obligations.FrameBytesSpellTheFrame : Prop :=
  (∀ bits : List Bool, (wholeBytes bits).length = bits.length / 8 ∧ ∀ k j, k < bits.length / 8 → j < 8 →
    ((wholeBytes bits).getD k 0).getLsbD (7 - j) = bits.getD (8 * k + j) false) ∧
  (∀ (f : PortFrame) (extra : Bytes), parseFrame f.bytes = some f ∧
    ((∀ tag x data, f ≠ .write tag x data) → parseFrame (f.bytes ++ extra) = some f) ∧
    (∀ n, n < (match f with | .read _ _ _ _ => 9 | .translate _ _ => 6 | .write _ _ _ => 6 | .erase _ _ => 6 | _ => 1) →
      parseFrame (f.bytes.take n) = none) ∧
    ∀ p bits, wholeBytes bits = f.bytes → frameCommand p bits = match f with
      | .read tag x n y => .read p tag x n y
      | .translate tag x => .translate p tag x
      | .write tag x data => .write p tag x data
      | .erase tag x => .erase p tag x
      | .collect => .collect p 1
      | .status => .status p
      | .reboot => .reboot p
      | .permitOn => .permitOn p
      | .permitOff => .permitOff p) ∧
  (∀ (code : Byte) (rest : Bytes), code ∉ ([0x01, 0x02, 0x03, 0x04, 0x10, 0x11, 0x12, 0x13, 0x14] : Bytes) →
    parseFrame (code :: rest) = none) ∧
  ∀ (p : Port) (bits : List Bool), parseFrame (wholeBytes bits) = none → frameCommand p bits = .malformedFrame p bits

/-! ## Service port -/

/-- SET_POINTER: the part acknowledges its own address, 0x58 plus the straps, and no other; the pointer byte sets AI and the
pointer, and begins a restart candidate when it is 0x7F and an ordinary write transaction otherwise; a write transaction
with no byte after the address leaves pointer and AI as they were and ends the transaction that ran, and while none runs no
data byte and no STOP has an effect (R189, R190, R200). READ_TRANSACTION to the part's address sends one byte for each one
clocked and steps the pointer after each: with AI to the next implemented address or from 0x4F on to 0x00, without AI round
its group of eight; it changes nothing else, and a transaction to any other address is not the part's (R189, R190, R191).
Each byte comes from the capture held, while it is of the record the pointer stands in, and else from that record as it
stands, which is captured; a capture is dropped when the pointer steps out of its record. The bytes of a transaction may
come in several commands, and what falls between them leaves pointer, capture and transaction alone, so that a record
captured is sent whole (R192; that the bytes of a transaction may be split among commands, so that events fall between them,
is log entry 17). -/
def Obligations.PointerAndReadTransactions : Prop :=
  ((∀ (s : State) (address : BitVec 7), s.live = true →
     (address.toNat = 0x58 + s.service.straps.toNat → ∀ byte : Byte, ∃ tr, exec (.setPointer address (some byte)) s = .next { s with
         service := { s.service with
           pointer := BitVec.ofNat 7 byte.toNat, autoIncrement := byte.getLsbD 7, transaction := tr, capture := none
           acked := true } } ∧
       (byte = 0x7F → tr = .candidate 0) ∧ (byte ≠ 0x7F → tr = .writing)) ∧
     (address.toNat = 0x58 + s.service.straps.toNat → exec (.setPointer address none) s =
       .next { s with service := { s.service with transaction := .none, capture := none, acked := true } }) ∧
     (address.toNat ≠ 0x58 + s.service.straps.toNat → ∀ byte : Option Byte, exec (.setPointer address byte) s =
       .next { s with service := { s.service with transaction := .none, capture := none, acked := false } })) ∧
   ∀ s : State, s.service.transaction = .none → ∀ c : Instr, (∃ b, c = .imageSelectWrite b) ∨ (∃ b, c = .clearWrite b) ∨
     (∃ b, c = .eventMaskWrite b) ∨ (∃ e b, c = .periodWrite e b) ∨ (∃ b, c = .registerWrite b) ∨ c = .floorAdvance ∨
     c = .revokeSlot ∨ (∃ b, c = .badCommand b) ∨ c = .restartSequence → exec c s = .next s) ∧
  (∀ (s : State) (address : BitVec 7) (count : Nat), s.live = true →
     (address.toNat = 0x58 + s.service.straps.toNat →
       ∃ (path : Nat → Nat) (bytes : Bytes) (held : Option (Record × Bytes)),
         exec (.readTransaction (some address) count) s = .next { s with service := { s.service with
           transaction := .reading, acked := true, sent := bytes, pointer := BitVec.ofNat 7 (path count), capture := held } } ∧
         bytes.length = count ∧ path 0 = s.service.pointer.toNat ∧ (∀ j, path j < 128) ∧
         (∀ j, j < count → bytes[j]? = some (s.recordByte (path j))) ∧
         ∀ j, (s.service.autoIncrement = false → path (j + 1) = path j / 8 * 8 + (path j + 1) % 8) ∧
           (s.service.autoIncrement = true → (0x4F ≤ path j → path (j + 1) = 0) ∧
             (path j < 0x4F → path j < path (j + 1) ∧ implemented (path (j + 1)) = true ∧
               ∀ q, path j < q → q < path (j + 1) → implemented q = false))) ∧
     (address.toNat ≠ 0x58 + s.service.straps.toNat → exec (.readTransaction (some address) count) s =
       .next { s with service := { s.service with transaction := .none, capture := none, acked := false } })) ∧
  (∀ s : State, s.live = true →
     -- a transaction that begins has nothing captured, and then goes on as one that runs
     (∀ (address : BitVec 7) n, address.toNat = 0x58 + s.service.straps.toNat →
       exec (.readTransaction (some address) n) s = exec (.readTransaction none n) { s with service := { s.service with
         transaction := .reading, capture := none, acked := true, sent := [] } }) ∧
     (s.service.transaction ≠ .reading → ∀ n, exec (.readTransaction none n) s = .next s) ∧
     (s.service.transaction = .reading → exec (.readTransaction none 0) s = .next s) ∧
     -- bytes one after another
     (∀ m n t, exec (.readTransaction none m) s = .next t →
       exec (.readTransaction none (m + n)) s = exec (.readTransaction none n) t) ∧
     -- one byte
     (s.service.transaction = .reading →
       let p := s.service.pointer.toNat
       let next := stepPointer s.service.autoIncrement s.service.pointer
       let sends := fun (byte : Byte) (held : Option (Record × Bytes)) => exec (.readTransaction none 1) s =
         .next { s with service := { s.service with pointer := next, sent := s.service.sent ++ [byte], capture := held } }
       (recordAt p = none → sends 0x00 none) ∧
       ∀ r b, recordAt p = some r →
         (s.service.capture = some (r, b) ∨ (∀ c, s.service.capture ≠ some (r, c)) ∧ b = s.recordBytes r) →
         (recordAt next.toNat = some r → sends (b.getD (p - r.base) 0) (some (r, b))) ∧
         (recordAt next.toNat ≠ some r → sends (b.getD (p - r.base) 0) none)) ∧
     -- every other command
     ∀ c t, exec c s = .next t → c ≠ .powerLoss → c ≠ .resetNAssert → (∀ x, c ≠ .resetNRelease x) → (∀ x, c ≠ .powerOn x) →
       (∀ a x, c ≠ .setPointer a x) → (∀ a n, c ≠ .readTransaction a n) → s.service.transaction = .reading →
       t.service.transaction = .reading ∧ t.service.capture = s.service.capture ∧ t.service.pointer = s.service.pointer ∧
         t.service.autoIncrement = s.service.autoIncrement ∧ t.service.sent = s.service.sent)

/-- The bytes of the status, event, command, identification and image select records and of the selected image's record, each
code as its table gives it, and 0x00 at every address that holds nothing or is write-only; floor and revoked mask read 0
while no fuse image is held (R4, R191, R193, R194, R199; 12_formats.md, Service record map). -/
def Obligations.RecordBytesShowTheState : Prop :=
  ∀ s : State, s.rescan.debt ≤ 8 →
    let verifier : Nat := match s.manifest.state with
      | .starting => 0 | .walking => 1 | .serving => 2 | .recoveryServing => 3 | .switching => 4 | .locked => 5
    let locked : Nat := match s.manifest.lockedCause with | none => 0 | some .selftest => 1 | some .noManifest => 2
    let source : Nat := match s.manifest.summary with
      | none => 0 | some ⟨.bank .bank0, _⟩ => 1 | some ⟨.bank .bank1, _⟩ => 2 | some ⟨.recovery, _⟩ => 3
    let permit : Nat := match s.permit.state with
      | .withheld => 0 | .rising => 1 | .granted => 2 | .falling => 3 | .tripped => 4
    let walkError : WalkError → Byte := fun e => match e with
      | .none => 0x00 | .noMarker => 0x01 | .badKind => 0x02 | .badLength => 0x03 | .keyMismatch => 0x04
      | .keyRevoked => 0x05 | .badSignature => 0x06 | .belowFloor => 0x07 | .tooDeep => 0x08 | .tableFull => 0x09
      | .digestStoreFull => 0x0A | .badWindow => 0x0C | .windowOverlap => 0x0D | .outOfRegion => 0x0E | .badEntry => 0x0F
      | .notTried => 0xFF
    let cause : CauseKind → Nat := fun k => match k with | .segment => 1 | .block => 2 | .rescan => 3
    let port : PortState → Nat := fun x => match x with | .held => 0 | .released => 1 | .rebooting => 2
    let flash : Nat := match s.flash.op with
      | .idle => 0 | .readyWait => 1 | .walkRead _ => 1 | .unitRead _ _ => 1 | .programming _ _ => 2 | .erasing _ _ => 3
      | .resetting _ => 4
    let result : Byte := match s.service.result with
      | .noResult => 0 | .busy => 1 | .done => 2 | .refused => 3 | .fault => 4 | .aborted => 5
    let reason : Byte := match s.service.reason with
      | .none => 0 | .notServing => 1 | .tripLatched => 2 | .imagesIncomplete => 3 | .badSlot => 4 | .activeSlot => 5
      | .alreadyRevoked => 6 | .badCommand => 7
    let image : Image → Nat := fun im => 128 + (if im.included = true then 64 else 0) +
      16 * (match im.state with | .pending => 0 | .complete => 1 | .failed => 2) +
      (match im.releaseMode with | .eager => 0 | .lazy => 8) + (match im.windowMode with | .linear => 0 | .mirror => 4) +
      (match im.owner with | .a => 1 | .b => 2 | .both => 3)
    let failed : Option FailureRecord → Nat × Nat := fun x => match x with
      | none => (0, 0) | some (.segment k) => (1, k) | some (.block k) => (2, k)
    (s.recordByte 0x00).toNat = verifier + 16 * locked ∧ (s.recordByte 0x01).toNat = source + 16 * permit ∧
    s.recordByte 0x02 = walkError s.manifest.errorBank0 ∧ s.recordByte 0x03 = walkError s.manifest.errorBank1 ∧
    s.recordByte 0x04 = walkError s.manifest.errorRecovery ∧
    (s.permit.cause = none → ∀ q, 5 ≤ q → q ≤ 8 → s.recordByte q = 0) ∧
    (∀ c, s.permit.cause = some c → c.image < 16 → c.index < 8192 →
      ((s.recordByte 0x05).getLsbD 7 = true ∧ (s.recordByte 0x05 &&& 0x7F).toNat = cause c.kind) ∧
      (s.recordByte 0x06).toNat = c.image ∧ 256 * (s.recordByte 0x07).toNat + (s.recordByte 0x08).toNat = c.index) ∧
    s.recordByte 0x09 = s.options.word ∧
    (s.fuseImage = none → s.recordByte 0x0A = 0 ∧ (s.recordByte 0x0B &&& 0x0F) = 0) ∧
    (∀ f, s.fuseImage = some f → (s.recordByte 0x0A).toNat = f.floor.toList.count true ∧
      ∀ k : Fin 4, (s.recordByte 0x0B).getLsbD k = f.revoked[k]) ∧
    (s.recordByte 0x0B).toNat / 16 = s.rescan.debt ∧
    256 * (s.recordByte 0x0C).toNat + (s.recordByte 0x0D).toNat = s.rescan.passCount.toNat ∧
    (s.recordByte 0x0E).toNat = port s.portA.state + 4 * port s.portB.state + 16 * flash ∧
    s.recordByte 0x10 = s.service.flags ∧ s.recordByte 0x12 = s.service.mask ∧
    s.recordByte 0x15 = s.options.eventMask ∧ s.recordByte 0x18 = s.service.argument ∧
    s.recordByte 0x19 = s.service.code ∧ s.recordByte 0x1A = result ∧ s.recordByte 0x1B = reason ∧
    s.recordByte 0x1C = (if s.service.ignored = true then 1 else 0) ∧
    ((∀ e, s.service.period e ≤ 3) → (s.recordByte 0x13).toNat = s.service.period .imageComplete ∧
      (s.recordByte 0x14).toNat = s.service.period .rescanPass) ∧
    (s.service.select ≤ 15 → (s.recordByte 0x30).toNat = s.service.select) ∧
    (List.range 8).map (fun q => s.recordByte (0x20 + q)) = [0x3D, 0x34, 0x20, 0x01, 0x3D, 0x34, 0x20, 0x01] ∧
    (s.images[s.service.select]? = none → ∀ q, 0x40 ≤ q → q ≤ 0x4F → s.recordByte q = 0) ∧
    (∀ im, s.images[s.service.select]? = some im → im.name.length = 8 → im.segments ≤ 8192 → im.verified ≤ 8192 →
      (failed im.failure).2 ≤ 8192 → (s.recordByte 0x40).toNat = image im ∧
      (s.recordByte 0x41).toNat = (failed im.failure).1 ∧
      256 * (s.recordByte 0x4E).toNat + (s.recordByte 0x4F).toNat = (failed im.failure).2 ∧
      (List.range 8).map (fun q => s.recordByte (0x42 + q)) = im.name ∧
      256 * (s.recordByte 0x4A).toNat + (s.recordByte 0x4B).toNat = im.segments ∧
      256 * (s.recordByte 0x4C).toNat + (s.recordByte 0x4D).toNat = im.verified) ∧
    ∀ q, implemented q = false ∨ q ∈ [0x0F, 0x11, 0x16, 0x17, 0x1D, 0x1E, 0x1F] → s.recordByte q = 0

/-- IMAGE_SELECT_WRITE, CLEAR_WRITE, EVENT_MASK_WRITE and PERIOD_WRITE: the byte takes effect at its field, a select above 15 or
a period above 3 changes nothing, the pointer steps and the byte is acknowledged (R190, R191, R194, R195, R196, R197).
REGISTER_WRITE in an ordinary write transaction stores the argument or the option event masks, and has no effect at a
read-only address or one that holds nothing; the pointer steps. In a restart candidate 0xC3 and then 0x3C are acknowledged,
any other byte abandons it, and neither record nor pointer changes (R51, R190, R191, R198, R200). -/
def Obligations.RecordWritesTakeEffect : Prop :=
  (∀ (s : State) (byte : Byte), s.live = true → s.service.transaction = .writing →
     let wrote := fun v : ServicePort =>
       Host.Outcome.next (φ := Fault) (ρ := Refusal) { s with service :=
         { v with pointer := stepPointer s.service.autoIncrement s.service.pointer, acked := true } }
     (s.service.pointer = 0x30 → exec (.imageSelectWrite byte) s = wrote
       { s.service with select := if byte.toNat ≤ 15 then byte.toNat else s.service.select }) ∧
     (s.service.pointer = 0x12 → exec (.eventMaskWrite byte) s = wrote { s.service with mask := byte }) ∧
     (s.service.pointer = 0x13 → exec (.periodWrite .imageComplete byte) s =
       wrote (if byte.toNat ≤ 3 then { s.service with imagePeriod := byte.toNat, imageCounter := 0 } else s.service)) ∧
     (s.service.pointer = 0x14 → exec (.periodWrite .rescanPass byte) s =
       wrote (if byte.toNat ≤ 3 then { s.service with passPeriod := byte.toNat, passCounter := 0 } else s.service)) ∧
     (s.service.pointer = 0x11 → ∃ v, exec (.clearWrite byte) s = wrote v ∧
       v = { s.service with flags := v.flags, imageCounter := v.imageCounter, passCounter := v.passCounter } ∧
       (∀ e : Event, v.flag e = true ↔ (s.service.flag e = true ∧ byte.getLsbD e.bit = false) ∨
         (s.service.flag e = true ∧ byte.getLsbD e.bit = true ∧ ∃ c, e = periodFlag c ∧ s.service.held c = true)) ∧
       ∀ c, v.counter c = if s.service.flag (periodFlag c) = true ∧ byte.getLsbD (periodFlag c).bit = true ∧
         s.service.held c = true then 0 else s.service.counter c)) ∧
  (∀ (s : State) (byte : Byte), s.live = true →
     let stepped : ServicePort :=
       { s.service with pointer := stepPointer s.service.autoIncrement s.service.pointer, acked := true }
     let watched := fun (tr : Transaction) (ack : Bool) => exec (.registerWrite byte) s =
       .next { s with service := { s.service with transaction := tr, acked := ack } }
     (s.service.transaction = .writing →
       (s.service.pointer = 0x18 → exec (.registerWrite byte) s =
         .next { s with service := { stepped with argument := byte } }) ∧
       (s.service.pointer = 0x15 → exec (.registerWrite byte) s =
         .next { s with service := stepped, options := { s.options with eventMask := byte } }) ∧
       (s.service.pointer ∉ ([0x11, 0x12, 0x13, 0x14, 0x15, 0x18, 0x19, 0x30] : List (BitVec 7)) →
         exec (.registerWrite byte) s = .next { s with service := stepped })) ∧
     (s.service.transaction = .candidate 0 →
       (byte = 0xC3 → watched (.candidate 1) true) ∧ (byte ≠ 0xC3 → watched .abandoned false)) ∧
     (s.service.transaction = .candidate 1 →
       (byte = 0x3C → watched (.candidate 2) true) ∧ (byte ≠ 0x3C → watched .abandoned false)) ∧
     (s.service.transaction = .candidate 2 ∨ s.service.transaction = .abandoned → watched .abandoned false))

/-- An occurrence of a counted event acts on its counter and flag by the table of R196: nothing at period 0; below the period
the counter rises, and reaching the period it sets a clear flag and returns to 0 or holds while the flag is set; a held
counter stays. A clear of the flag of a held counter sets it again and returns the counter to 0, with SVC_INT_N unchanged
when the byte clears nothing else; a period of 0 to 3 written returns the counter to 0 and a byte above 3 changes neither
(R196). -/
def Obligations.PeriodCountersFollowTheTable : Prop :=
  ∀ (v : ServicePort) (e : PeriodEvent), v.counter e ≤ v.period e → v.period e ≤ 3 →
    let o := v.occurrence e
    (v.period e = 0 → o = v) ∧
    (v.counter e + 1 < v.period e → o = v.setCounter e (v.counter e + 1)) ∧
    (v.counter e + 1 = v.period e → v.flag (periodFlag e) = false →
      o.flag (periodFlag e) = true ∧ o.counter e = 0 ∧ o = (v.setFlag (periodFlag e)).setCounter e 0) ∧
    (v.counter e + 1 = v.period e → v.flag (periodFlag e) = true → o = v.setCounter e (v.period e)) ∧
    (1 ≤ v.period e → v.counter e = v.period e → o = v) ∧
    (∀ s : State, s.live = true → s.service = v → v.transaction = .writing →
      (v.pointer = 0x11 → 1 ≤ v.period e → v.counter e = v.period e → v.flag (periodFlag e) = true →
        ∀ byte : Byte, byte.getLsbD (periodFlag e).bit = true → ∃ t, exec (.clearWrite byte) s = .next t ∧
          t.service.flag (periodFlag e) = true ∧ t.service.counter e = 0 ∧
          (byte = oneHot (periodFlag e).bit → t.svcIntLow = s.svcIntLow)) ∧
      (v.pointer = addrPeriod e → ∀ byte : Byte, ∃ t, exec (.periodWrite e byte) s = .next t ∧
        (byte.toNat ≤ 3 → t.service.period e = byte.toNat ∧ t.service.counter e = 0) ∧
        (3 < byte.toNat → t.service.period e = v.period e ∧ t.service.counter e = v.counter e)))

/-! ## Fuse commands and restarts -/

/-- FLOOR_ADVANCE with the fuse controller IDLE is taken: refused NOT_SERVING, TRIP_LATCHED or IMAGES_INCOMPLETE by the first
condition that fails, burning nothing and raising no event; else it ends at once with DONE and FUSE_DONE when the active
root's level is at or below the floor, or enters BURNING on the lowest unburned floor fuse with that level as target (R11). -/
def Obligations.FloorAdvanceIsJudged : Prop :=
  ∀ s : State, s.live = true → s.service.transaction = .writing → s.service.pointer = 0x19 → s.fuseController = .idle →
    let taken : ServicePort := { s.service with
      pointer := stepPointer s.service.autoIncrement s.service.pointer, acked := true, code := 0xA1, ignored := false }
    let complete := ∀ im ∈ s.images, im.included = true → im.state = .complete
    let refused := fun r => exec .floorAdvance s =
      .next { s with service := { taken with result := .refused, reason := r } }
    (s.manifest.state ≠ .serving → refused .notServing) ∧
    (s.manifest.state = .serving → s.permit.cause ≠ none → refused .tripLatched) ∧
    (s.manifest.state = .serving → s.permit.cause = none → ¬ complete → refused .imagesIncomplete) ∧
    (∀ f b root, s.manifest.state = .serving → s.permit.cause = none → complete → s.fuseImage = some f →
      s.manifest.summary = some ⟨.bank b, some root⟩ → root.level ≤ 32 →
      let floor := f.floor.toList.count true
      (root.level ≤ floor → exec .floorAdvance s = .next { s with
        service := { taken with result := .done, reason := .none, flags := s.service.flags ||| 0x40 } }) ∧
      (floor < root.level → ∃ k : Fin 32, f.floor[k] = false ∧ (∀ j : Fin 32, j < k → f.floor[j] = true) ∧
        exec .floorAdvance s = .next { s with
          fuseController := .burningFloor k root.level
          service := { taken with result := .busy, reason := .none } }))

/-- REVOKE_SLOT with the fuse controller IDLE is taken with the argument as slot number: refused NOT_SERVING, BAD_SLOT,
ACTIVE_SLOT or ALREADY_REVOKED by the first condition that fails, burning nothing and raising no event; else it enters
BURNING on that slot's revoke fuse (R14, R198, R199). A command write while the fuse controller is BURNING, whatever its
code, is not taken: only IGNORED is set, the byte acknowledged and the pointer stepped. BAD_COMMAND in IDLE is taken and
refused with BAD_COMMAND (R198, R199). -/
def Obligations.RevokeSlotAndOtherCommands : Prop :=
  (∀ s : State, s.live = true → s.service.transaction = .writing → s.service.pointer = 0x19 → s.fuseController = .idle →
     let taken : ServicePort := { s.service with
       pointer := stepPointer s.service.autoIncrement s.service.pointer, acked := true, code := 0xA2, ignored := false }
     let refused := fun r => exec .revokeSlot s =
       .next { s with service := { taken with result := .refused, reason := r } }
     (s.manifest.state ≠ .serving → refused .notServing) ∧
     (s.manifest.state = .serving → 4 ≤ s.service.argument.toNat → refused .badSlot) ∧
     ∀ f b root (n : Fin 4), s.manifest.state = .serving → s.fuseImage = some f →
       s.manifest.summary = some ⟨.bank b, some root⟩ → s.service.argument.toNat = n →
       (root.keySlot = n → refused .activeSlot) ∧
       (root.keySlot ≠ n → f.revoked[n] = true → refused .alreadyRevoked) ∧
       (root.keySlot ≠ n → f.revoked[n] = false → exec .revokeSlot s = .next { s with
         fuseController := .burningRevoke n
         service := { taken with result := .busy, reason := .none } })) ∧
  (∀ (s : State) (code : Byte), s.live = true → s.service.transaction = .writing → s.service.pointer = 0x19 →
     code ≠ 0xA1 → code ≠ 0xA2 →
     let stepped : ServicePort :=
       { s.service with pointer := stepPointer s.service.autoIncrement s.service.pointer, acked := true }
     (s.fuseController ≠ .idle → ∀ c, c = .floorAdvance ∨ c = .revokeSlot ∨ c = .badCommand code →
       exec c s = .next { s with service := { stepped with ignored := true } }) ∧
     (s.fuseController = .idle → exec (.badCommand code) s = .next { s with service :=
       { stepped with code := code, ignored := false, result := .refused, reason := .badCommand } }))

/-- FUSE_BURN_COMPLETION of a floor fuse, no restart pending: a failed read-back ends the command with FAULT and leaves the fuse
unsettled; a good one settles it in array and image, and the command ends with DONE at the target, ends with ABORTED outside
SERVING, or goes on to the next unburned fuse; each end raises FUSE_DONE in IDLE (R6, R8, R10, R12, R13, R199).
FUSE_BURN_COMPLETION of a revoke fuse, no restart pending: DONE with the slot revoked in array and image on a good
read-back, FAULT with the fuse unsettled on a failed one, whatever the verifier state; FUSE_DONE is raised in IDLE (R6, R10,
R14, R199). -/
def Obligations.FuseBurnsComplete : Prop :=
  (∀ (s : State) (f : FuseImage) (k : Fin 32) (target : Nat), s.live = true → s.service.pendingRestart = false →
     s.fuseController = .burningFloor k target → s.fuseImage = some f → target ≤ 32 →
     let after : FuseImage := { f with floor := f.floor.set k true }
     let floor := after.floor.toList.count true
     let ended := fun r => { s.service with result := r, reason := RefusalReason.none, flags := s.service.flags ||| 0x40 }
     let burned : State := { s with
       fuseArray := { s.fuseArray with floor := s.fuseArray.floor.set k .burned }, fuseImage := some after }
     (∃ c, exec (.fuseBurnCompletion false) s = .next { s with
         fuseController := .idle, service := ended .fault, nextFree := s.nextFree + 1
         fuseArray := { s.fuseArray with floor := s.fuseArray.floor.set k c } } ∧
       (s.fuseArray.floor[k] ≠ .burned → c = .unsettled s.nextFree)) ∧
     (target ≤ floor → exec (.fuseBurnCompletion true) s =
       .next { burned with fuseController := .idle, service := ended .done }) ∧
     (floor < target → s.manifest.state ≠ .serving → exec (.fuseBurnCompletion true) s =
       .next { burned with fuseController := .idle, service := ended .aborted }) ∧
     (floor < target → s.manifest.state = .serving → ∃ j : Fin 32, after.floor[j] = false ∧
       (∀ i : Fin 32, i < j → after.floor[i] = true) ∧
       exec (.fuseBurnCompletion true) s = .next { burned with fuseController := .burningFloor j target })) ∧
  (∀ (s : State) (f : FuseImage) (k : Fin 4), s.live = true → s.service.pendingRestart = false →
     s.fuseController = .burningRevoke k → s.fuseImage = some f →
     let ended := fun r => { s.service with result := r, reason := RefusalReason.none, flags := s.service.flags ||| 0x40 }
     exec (.fuseBurnCompletion true) s = .next { s with
       fuseController := .idle, service := ended .done
       fuseArray := { s.fuseArray with revoke := s.fuseArray.revoke.set k .burned }
       fuseImage := some { f with revoked := f.revoked.set k true } } ∧
     ∃ c, exec (.fuseBurnCompletion false) s = .next { s with
         fuseController := .idle, service := ended .fault, nextFree := s.nextFree + 1
         fuseArray := { s.fuseArray with revoke := s.fuseArray.revoke.set k c } } ∧
       (s.fuseArray.revoke[k] ≠ .burned → c = .unsettled s.nextFree))

/-- RESTART_SEQUENCE after both acknowledged bytes sets the pending mark; with the fuse controller IDLE the restart takes effect
at that STOP, and while it is BURNING it is held until SERVICE_RESTART, or the burn's end, finds the controller IDLE. It
enters STARTING, keeps fuse image, options, masks, periods and result, clears the tables, the trip and the flags, and cuts
short a frame that runs (R16, R17, R50, R150, R174, R200, R201; what of it had been driven is log entry 34). A held restart
takes effect at the end of the fuse command it waited for, REVOKE_SLOT or FLOOR_ADVANCE: after the result is set, the part
is in STARTING with the result kept and FUSE_DONE cleared; it goes on being held while FLOOR_ADVANCE goes on to its next
fuse (R12, R16, R199, R201). -/
def Obligations.RestartsEnterStarting : Prop :=
  (∀ (s : State) (c : Instr), s.live = true →
     (c = .restartSequence ∧ s.service.transaction = .candidate 2) ∨
       (c = .serviceRestart ∧ s.service.pendingRestart = true) →
     (s.fuseController ≠ .idle →
       (c = .restartSequence → exec c s = .next { s with service :=
         { s.service with transaction := .none, pendingRestart := true } }) ∧
       (c = .serviceRestart → exec c s = .next s)) ∧
     (s.fuseController = .idle → ∃ t, exec c s = .next t ∧
       t.manifest = { ManifestUnit.cleared with startStep := some .flashWait } ∧ t.images = [] ∧ t.store = [] ∧
       t.segMap = [] ∧ (∀ k : Fin 8, t.slots[k].state = .free ∧ t.slots[k].hold = 0) ∧
       (∀ n : Fin 64, t.lines[n].state = .free ∧ t.lines[n].pins = 0) ∧ t.engine = ⟨none, none⟩ ∧
       (∀ a, s.flash.op = .resetting a → t.flash = { s.flash with op := .resetting .readyWait }) ∧
       ((∀ a, s.flash.op ≠ .resetting a) → t.flash = ⟨.readyWait, [⟨0x05, [], 0, .fio1, []⟩]⟩) ∧
       (∀ p, (t.port p).state = .held ∧ (t.port p).queue = [] ∧ (t.port p).holdServed = false ∧
         (t.port p).frameLive = false ∧ FrameCut s p t ∧ (t.port p).overrun = false ∧ (t.port p).dropped = false ∧
         (t.port p).badFrame = false) ∧
       t.permitRequest = false ∧ t.permit.state = .withheld ∧ t.permit.cause = none ∧ t.permit.timer = none ∧
       t.permit.delays = s.permit.delays ∧
       (∀ l, t.permit.lines.get l = if s.fuseImage.isSome = true then .inactive else .released) ∧
       t.options = { s.options with debounce := 16 } ∧
       t.rescan = { s.rescan with
         running := false, debt := 0, cursorImage := 0, cursorSegment := 0, buffer := .empty, tag := none, passCount := 0 } ∧
       t.service = { s.service with
         flags := 0, imageCounter := 0, passCounter := 0, pendingRestart := false
         transaction := t.service.transaction } ∧
       t.fuseArray = s.fuseArray ∧ t.fuseImage = s.fuseImage ∧ t.fuseController = .idle ∧ t.arbiter = ⟨.a, [], 0, 0⟩)) ∧
  (∀ s : State, s.live = true → s.service.pendingRestart = true →
     let restarted := fun (t : State) (r : ResultStatus) => t.manifest.state = .starting ∧
       t.manifest.startStep = some .flashWait ∧ t.fuseController = .idle ∧ t.service.pendingRestart = false ∧
       t.service.result = r ∧ t.service.flags = 0 ∧ t.svcIntLow = false
     (∀ k good, s.fuseController = .burningRevoke k → ∃ t, exec (.fuseBurnCompletion good) s = .next t ∧
       restarted t (if good = true then .done else .fault) ∧
       (good = true → t.fuseArray.revoke[k] = .burned ∧ ∀ f, t.fuseImage = some f → f.revoked[k] = true)) ∧
     ∀ k target f, s.fuseController = .burningFloor k target → s.fuseImage = some f → target ≤ 32 →
       let floor := (f.floor.set k true).toList.count true
       (∃ t, exec (.fuseBurnCompletion false) s = .next t ∧ restarted t .fault ∧ t.fuseImage = some f) ∧
       (target ≤ floor → ∃ t, exec (.fuseBurnCompletion true) s = .next t ∧ restarted t .done ∧
         t.fuseArray.floor[k] = .burned ∧ t.fuseImage = some { f with floor := f.floor.set k true }) ∧
       (floor < target → s.manifest.state ≠ .serving → ∃ t, exec (.fuseBurnCompletion true) s = .next t ∧
         restarted t .aborted ∧ t.fuseArray.floor[k] = .burned) ∧
       (floor < target → s.manifest.state = .serving → ∃ t j, exec (.fuseBurnCompletion true) s = .next t ∧
         t.fuseController = .burningFloor j target ∧ t.service = s.service ∧ t.manifest = s.manifest))

/-! ## Invariants that every step keeps -/

/-- Reset meets every invariant stated here (R17, R18, R60, R124, R174, R188, R201). -/
def Obligations.ResetIsSafe : Prop :=
  StartOrder State.reset ∧ PermitSafe State.reset ∧ (∀ p, PortSafe State.reset p) ∧ FuseSafe State.reset ∧
    WithinBounds State.reset ∧ CountsAgree State.reset ∧ ProvenCopies State.reset ∧ PinsAgree State.reset

/-- Every step keeps the order of STARTING (R18, R19, R20, R102, R108). Every step keeps each port safe: RELEASED only in
SERVING or RECOVERY_SERVING, an empty queue and no live frame elsewhere (R124, R149, R150). -/
def Obligations.StepsKeepStartOrderAndPorts : Prop :=
  (∀ s t : State, StartOrder s → step s = .next t → StartOrder t) ∧
  (∀ (s t : State) (p : Port), StartOrder s → PortSafe s p → step s = .next t → PortSafe t p)

/-- Every step keeps the permit safe: lines active only in RISING, GRANTED and FALLING and as a run from PL0, GRANTED only while
SERVING with every included image COMPLETE, no trip and the request, TRIPPED exactly while a cause is present (R160, R162,
R164, R166, R167, R171, R172, R175). While the permit is GRANTED every segment of every included image is VERIFIED (R61,
R162, R166). -/
def Obligations.StepsKeepThePermitSafe : Prop :=
  (∀ s t : State, StartOrder s → PermitSafe s → step s = .next t → PermitSafe t) ∧
  (∀ s : State, PermitSafe s → CountsAgree s → s.permit.state = .granted →
     ∀ (i : Nat) im, s.images[i]? = some im → im.included = true → ∀ g, g < im.segments → s.segState i g = .verified)

/-- Every step keeps the fuses safe: image held outside STARTING, controller IDLE in it, each burn on a fuse that reads
unburned, and every fuse burned in the image burned at every later load (R5, R6, R8, R10, R14). The rollback floor of the
fuse image never falls while it is held, and stays at most 32; a reload never shows less than the image held before it (R5,
R6, R8). No command of any kind unburns a fuse: a floor or revoke fuse settled as burned stays burned (R6). -/
def Obligations.StepsKeepFusesAndFloor : Prop :=
  (∀ s t : State, StartOrder s → FuseSafe s → step s = .next t → FuseSafe t) ∧
  (∀ s t : State, StartOrder s → FuseSafe s → step s = .next t → ∀ f g, s.fuseImage = some f → t.fuseImage = some g →
     f.floor.toList.count true ≤ g.floor.toList.count true ∧ g.floor.toList.count true ≤ 32) ∧
  (∀ (c : Instr) (s t : State), exec c s = .next t →
     (∀ k : Fin 32, s.fuseArray.floor[k] = .burned → t.fuseArray.floor[k] = .burned) ∧
     ∀ k : Fin 4, s.fuseArray.revoke[k] = .burned → t.fuseArray.revoke[k] = .burned)

/-- Every step keeps within their bounds the image table of 16, the block digest store of 128, the segment map of 16,384, the
walk stack of 3, the read-ahead list of 8, the port queues of 4, the rescan debt of 8, the image select of 15 and the period
counters (R28, R33, R116, R128, R179, R194, R196). Where pins and holds agree (an invariant that another statement keeps), a
line has at most 8 pins and 8 waiters, all lines together at most 24 pins, and a digest slot at most 2 holds (R71, R85,
R86). Every step keeps the counts: a verified count is the number of its image's VERIFIED segments, and a COMPLETE image's
is N (R45, R60, R61). -/
def Obligations.StepsKeepBoundsAndCounts : Prop :=
  (∀ s t : State, WithinBounds s → step s = .next t → WithinBounds t) ∧
  (∀ s : State, WithinBounds s → PinsAgree s →
     (∀ n : Fin 64, s.lines[n].pins ≤ 8 ∧ s.lines[n].waiters.length ≤ 8) ∧
     ((List.finRange 64).map fun n => s.lines[n].pins).sum ≤ 24 ∧ (∀ k : Fin 8, s.slots[k].hold ≤ 2) ∧
     (s.segMap.map List.length).sum ≤ 16384) ∧
  (∀ s t : State, CountsAgree s → step s = .next t → CountsAgree t)

/-- Every step keeps every VALID slot a proven block and every VALID or STALE line a proven segment (R64, R68, R74, R83, R100).
Every step keeps pins and holds agreeing: a READ pinned on a line holds a VALID or STALE line of its segment, and each
segment once; a line's pin count is the number of READs pinned on it, its waiters are those that wait on it, and a slot's
hold is the number of units that will use it (R71, R84, R85, R86, R91, R94, R96). So each piece of a READ decided OK or
SHORT is bytes of a segment's proven data. -/
def Obligations.StepsKeepCopiesProven : Prop :=
  (∀ s t : State, StartOrder s → ProvenCopies s → step s = .next t → ProvenCopies t) ∧
  (∀ s t : State, StartOrder s → (∀ p, PortSafe s p) → ProvenCopies s → PinsAgree s → step s = .next t → PinsAgree t) ∧
  (∀ (s : State) (p : Port) (e : Entry) (r : ReadBody) (i : Nat), ProvenCopies s → PinsAgree s → e ∈ (s.port p).queue →
     e.body = .read r → r.image = some i → e.status = some .ok ∨ e.status = some .short →
     ∀ x ∈ r.pieces, ∃ data, s.provenSegment ⟨i, x.segment⟩ data ∧ data.length = 4096 ∧
       s.pieceBytes r.holds x = slice data x.start x.length)
end

