-- ==== Sys2Proof/Laws/Digest.lean ====
section
/-! SUPPORT. Laws/Digest.lean: a SHA-256 value has 32 bytes. -/

namespace Sys2Proof.Machine

/-- Four words of each kind. -/
def ShaWords.whole (x : ShaWords) : Prop := x.1.length = 4 ∧ x.2.length = 4

theorem shaRound_whole (c w : Nat) (x : ShaWords) (h : ShaWords.whole x) : ShaWords.whole (shaRound c w x) := by
  unfold shaRound
  split
  · exact ⟨rfl, rfl⟩
  · exact h

theorem shaRounds_whole (cs : List Nat) : ∀ ws x, ShaWords.whole x → ShaWords.whole (shaRounds cs ws x) := by
  induction cs with
  | nil => exact fun ws x h => by unfold shaRounds; exact h
  | cons c cs ih =>
    intro ws x h
    cases ws with
    | nil => unfold shaRounds; exact h
    | cons w ws => unfold shaRounds; exact ih _ _ (shaRound_whole c w x h)

theorem shaBlocks_whole (n : Nat) : ∀ b x, ShaWords.whole x → ShaWords.whole (shaBlocks n b x) := by
  induction n with
  | zero => exact fun b x h => h
  | succ n ih =>
    intro b x h
    have g := shaRounds_whole shaConstants (wordsOf 16 b) x h
    exact ih _ _ ⟨by simp [h.1, g.1], by simp [h.2, g.2]⟩

/-- Four bytes a word. -/
theorem be32_flatMap_length (l : List Nat) : (l.flatMap be32).length = 4 * l.length := by
  induction l with
  | nil => rfl
  | cons x l ih => rw [List.flatMap_cons, List.length_append, ih, List.length_cons, show (be32 x).length = 4 from rfl]; omega

theorem sha256_length (b : Bytes) : (sha256 b).length = 32 := by
  have h := shaBlocks_whole ((shaPad b).length / 64) (shaPad b) shaStart ⟨rfl, rfl⟩
  simp only [sha256, be32_flatMap_length, List.length_append, h.1, h.2]

/-- The first digest of a block. -/
theorem slice_sha256 (b rest : Bytes) : slice (sha256 b ++ rest) 0 32 = sha256 b := by
  rw [slice, List.drop_zero, List.take_append_of_le_length (Nat.le_of_eq (sha256_length b).symm),
    List.take_of_length_le (Nat.le_of_eq (sha256_length b))]

theorem slice_sha256_self (b : Bytes) : slice (sha256 b) 0 32 = sha256 b := by
  rw [← List.append_nil (sha256 b), slice_sha256, List.append_nil]

end Sys2Proof.Machine
end

