-- ==== Sys2Proof/Laws/State.lean ====
section
/-! SUPPORT. Laws/State.lean: what each named update of State leaves as it was, field by field, and what it sets. Each frame lemma
lists every field the update does not touch. -/

namespace Sys2Proof.Machine

/-- A view that each step of a left fold keeps, the fold keeps. -/
theorem foldl_keeps {α β γ : Type} (g : β → γ) (f : β → α → β) (h : ∀ b a, g (f b a) = g b) (l : List α) (b : β) :
    g (l.foldl f b) = g b := by
  induction l generalizing b with
  | nil => rfl
  | cons a l ih => simp [ih, h]

/-- A property that each step of a left fold keeps, the fold keeps. -/
theorem foldl_induct {α β : Type} (P : β → Prop) (f : β → α → β) (h : ∀ b a, P b → P (f b a)) (l : List α) (b : β)
    (hb : P b) : P (l.foldl f b) := by
  induction l generalizing b with
  | nil => exact hb
  | cons a l ih => exact ih _ (h _ _ hb)

/-! ## Service port events -/

@[simp] theorem State.raise_frame (s : State) (e : Event) :
    (s.raise e).supplies = s.supplies ∧ (s.raise e).resetN = s.resetN ∧ (s.raise e).fuseArray = s.fuseArray ∧
    (s.raise e).fuseImage = s.fuseImage ∧ (s.raise e).fuseController = s.fuseController ∧
    (s.raise e).manifest = s.manifest ∧ (s.raise e).images = s.images ∧ (s.raise e).store = s.store ∧
    (s.raise e).segMap = s.segMap ∧ (s.raise e).slots = s.slots ∧ (s.raise e).slotLru = s.slotLru ∧
    (s.raise e).lines = s.lines ∧ (s.raise e).lineLru = s.lineLru ∧ (s.raise e).engine = s.engine ∧
    (s.raise e).flash = s.flash ∧ (s.raise e).arbiter = s.arbiter ∧ (s.raise e).portA = s.portA ∧
    (s.raise e).portB = s.portB ∧ (s.raise e).permitRequest = s.permitRequest ∧ (s.raise e).options = s.options ∧
    (s.raise e).permit = s.permit ∧ (s.raise e).rescan = s.rescan ∧ (s.raise e).nextEntry = s.nextEntry ∧
    (s.raise e).nextFree = s.nextFree ∧ (s.raise e).pending = s.pending :=
  ⟨rfl, rfl, rfl, rfl, rfl, rfl, rfl, rfl, rfl, rfl, rfl, rfl, rfl, rfl, rfl, rfl, rfl, rfl, rfl, rfl, rfl, rfl, rfl, rfl, rfl⟩

@[simp] theorem State.occur_frame (s : State) (e : PeriodEvent) :
    (s.occur e).supplies = s.supplies ∧ (s.occur e).resetN = s.resetN ∧ (s.occur e).fuseArray = s.fuseArray ∧
    (s.occur e).fuseImage = s.fuseImage ∧ (s.occur e).fuseController = s.fuseController ∧
    (s.occur e).manifest = s.manifest ∧ (s.occur e).images = s.images ∧ (s.occur e).store = s.store ∧
    (s.occur e).segMap = s.segMap ∧ (s.occur e).slots = s.slots ∧ (s.occur e).slotLru = s.slotLru ∧
    (s.occur e).lines = s.lines ∧ (s.occur e).lineLru = s.lineLru ∧ (s.occur e).engine = s.engine ∧
    (s.occur e).flash = s.flash ∧ (s.occur e).arbiter = s.arbiter ∧ (s.occur e).portA = s.portA ∧
    (s.occur e).portB = s.portB ∧ (s.occur e).permitRequest = s.permitRequest ∧ (s.occur e).options = s.options ∧
    (s.occur e).permit = s.permit ∧ (s.occur e).rescan = s.rescan ∧ (s.occur e).nextEntry = s.nextEntry ∧
    (s.occur e).nextFree = s.nextFree ∧ (s.occur e).pending = s.pending :=
  ⟨rfl, rfl, rfl, rfl, rfl, rfl, rfl, rfl, rfl, rfl, rfl, rfl, rfl, rfl, rfl, rfl, rfl, rfl, rfl, rfl, rfl, rfl, rfl, rfl, rfl⟩

@[simp] theorem State.raise_service (s : State) (e : Event) : (s.raise e).service = s.service.setFlag e := rfl

@[simp] theorem State.occur_service (s : State) (e : PeriodEvent) : (s.occur e).service = s.service.occurrence e := rfl

/-! ## Images, slots and lines -/

@[simp] theorem State.modImage_frame (s : State) (i : Nat) (f : Image → Image) :
    (s.modImage i f).supplies = s.supplies ∧ (s.modImage i f).resetN = s.resetN ∧ (s.modImage i f).fuseArray = s.fuseArray ∧
    (s.modImage i f).fuseImage = s.fuseImage ∧ (s.modImage i f).fuseController = s.fuseController ∧
    (s.modImage i f).manifest = s.manifest ∧ (s.modImage i f).store = s.store ∧ (s.modImage i f).segMap = s.segMap ∧
    (s.modImage i f).slots = s.slots ∧ (s.modImage i f).slotLru = s.slotLru ∧ (s.modImage i f).lines = s.lines ∧
    (s.modImage i f).lineLru = s.lineLru ∧ (s.modImage i f).engine = s.engine ∧ (s.modImage i f).flash = s.flash ∧
    (s.modImage i f).arbiter = s.arbiter ∧ (s.modImage i f).portA = s.portA ∧ (s.modImage i f).portB = s.portB ∧
    (s.modImage i f).permitRequest = s.permitRequest ∧ (s.modImage i f).options = s.options ∧
    (s.modImage i f).permit = s.permit ∧ (s.modImage i f).rescan = s.rescan ∧ (s.modImage i f).service = s.service ∧
    (s.modImage i f).nextEntry = s.nextEntry ∧ (s.modImage i f).nextFree = s.nextFree ∧
    (s.modImage i f).pending = s.pending :=
  ⟨rfl, rfl, rfl, rfl, rfl, rfl, rfl, rfl, rfl, rfl, rfl, rfl, rfl, rfl, rfl, rfl, rfl, rfl, rfl, rfl, rfl, rfl, rfl, rfl, rfl⟩

@[simp] theorem State.modImage_images (s : State) (i : Nat) (f : Image → Image) :
    (s.modImage i f).images = s.images.modify i f := rfl

@[simp] theorem State.setSegState_frame (s : State) (i g : Nat) (x : SegState) :
    (s.setSegState i g x).supplies = s.supplies ∧ (s.setSegState i g x).resetN = s.resetN ∧
    (s.setSegState i g x).fuseArray = s.fuseArray ∧ (s.setSegState i g x).fuseImage = s.fuseImage ∧
    (s.setSegState i g x).fuseController = s.fuseController ∧ (s.setSegState i g x).manifest = s.manifest ∧
    (s.setSegState i g x).images = s.images ∧ (s.setSegState i g x).store = s.store ∧
    (s.setSegState i g x).slots = s.slots ∧ (s.setSegState i g x).slotLru = s.slotLru ∧
    (s.setSegState i g x).lines = s.lines ∧ (s.setSegState i g x).lineLru = s.lineLru ∧
    (s.setSegState i g x).engine = s.engine ∧ (s.setSegState i g x).flash = s.flash ∧
    (s.setSegState i g x).arbiter = s.arbiter ∧ (s.setSegState i g x).portA = s.portA ∧
    (s.setSegState i g x).portB = s.portB ∧ (s.setSegState i g x).permitRequest = s.permitRequest ∧
    (s.setSegState i g x).options = s.options ∧ (s.setSegState i g x).permit = s.permit ∧
    (s.setSegState i g x).rescan = s.rescan ∧ (s.setSegState i g x).service = s.service ∧
    (s.setSegState i g x).nextEntry = s.nextEntry ∧ (s.setSegState i g x).nextFree = s.nextFree ∧
    (s.setSegState i g x).pending = s.pending :=
  ⟨rfl, rfl, rfl, rfl, rfl, rfl, rfl, rfl, rfl, rfl, rfl, rfl, rfl, rfl, rfl, rfl, rfl, rfl, rfl, rfl, rfl, rfl, rfl, rfl, rfl⟩

@[simp] theorem State.setSegState_segMap (s : State) (i g : Nat) (x : SegState) :
    (s.setSegState i g x).segMap = s.segMap.modify i (fun m => m.set g x) := rfl

@[simp] theorem State.modSlot_frame (s : State) (n : Fin 8) (f : Slot → Slot) :
    (s.modSlot n f).supplies = s.supplies ∧ (s.modSlot n f).resetN = s.resetN ∧ (s.modSlot n f).fuseArray = s.fuseArray ∧
    (s.modSlot n f).fuseImage = s.fuseImage ∧ (s.modSlot n f).fuseController = s.fuseController ∧
    (s.modSlot n f).manifest = s.manifest ∧ (s.modSlot n f).images = s.images ∧ (s.modSlot n f).store = s.store ∧
    (s.modSlot n f).segMap = s.segMap ∧ (s.modSlot n f).slotLru = s.slotLru ∧ (s.modSlot n f).lines = s.lines ∧
    (s.modSlot n f).lineLru = s.lineLru ∧ (s.modSlot n f).engine = s.engine ∧ (s.modSlot n f).flash = s.flash ∧
    (s.modSlot n f).arbiter = s.arbiter ∧ (s.modSlot n f).portA = s.portA ∧ (s.modSlot n f).portB = s.portB ∧
    (s.modSlot n f).permitRequest = s.permitRequest ∧ (s.modSlot n f).options = s.options ∧
    (s.modSlot n f).permit = s.permit ∧ (s.modSlot n f).rescan = s.rescan ∧ (s.modSlot n f).service = s.service ∧
    (s.modSlot n f).nextEntry = s.nextEntry ∧ (s.modSlot n f).nextFree = s.nextFree ∧ (s.modSlot n f).pending = s.pending :=
  ⟨rfl, rfl, rfl, rfl, rfl, rfl, rfl, rfl, rfl, rfl, rfl, rfl, rfl, rfl, rfl, rfl, rfl, rfl, rfl, rfl, rfl, rfl, rfl, rfl, rfl⟩

@[simp] theorem State.modSlot_slots (s : State) (n : Fin 8) (f : Slot → Slot) :
    (s.modSlot n f).slots = s.slots.set n (f s.slots[n]) := rfl

@[simp] theorem State.touchSlot_frame (s : State) (n : Fin 8) :
    (s.touchSlot n).supplies = s.supplies ∧ (s.touchSlot n).resetN = s.resetN ∧ (s.touchSlot n).fuseArray = s.fuseArray ∧
    (s.touchSlot n).fuseImage = s.fuseImage ∧ (s.touchSlot n).fuseController = s.fuseController ∧
    (s.touchSlot n).manifest = s.manifest ∧ (s.touchSlot n).images = s.images ∧ (s.touchSlot n).store = s.store ∧
    (s.touchSlot n).segMap = s.segMap ∧ (s.touchSlot n).slots = s.slots ∧ (s.touchSlot n).lines = s.lines ∧
    (s.touchSlot n).lineLru = s.lineLru ∧ (s.touchSlot n).engine = s.engine ∧ (s.touchSlot n).flash = s.flash ∧
    (s.touchSlot n).arbiter = s.arbiter ∧ (s.touchSlot n).portA = s.portA ∧ (s.touchSlot n).portB = s.portB ∧
    (s.touchSlot n).permitRequest = s.permitRequest ∧ (s.touchSlot n).options = s.options ∧
    (s.touchSlot n).permit = s.permit ∧ (s.touchSlot n).rescan = s.rescan ∧ (s.touchSlot n).service = s.service ∧
    (s.touchSlot n).nextEntry = s.nextEntry ∧ (s.touchSlot n).nextFree = s.nextFree ∧ (s.touchSlot n).pending = s.pending :=
  ⟨rfl, rfl, rfl, rfl, rfl, rfl, rfl, rfl, rfl, rfl, rfl, rfl, rfl, rfl, rfl, rfl, rfl, rfl, rfl, rfl, rfl, rfl, rfl, rfl, rfl⟩

@[simp] theorem State.takeHold_frame (s : State) (n : Fin 8) :
    (s.takeHold n).supplies = s.supplies ∧ (s.takeHold n).resetN = s.resetN ∧ (s.takeHold n).fuseArray = s.fuseArray ∧
    (s.takeHold n).fuseImage = s.fuseImage ∧ (s.takeHold n).fuseController = s.fuseController ∧
    (s.takeHold n).manifest = s.manifest ∧ (s.takeHold n).images = s.images ∧ (s.takeHold n).store = s.store ∧
    (s.takeHold n).segMap = s.segMap ∧ (s.takeHold n).slotLru = s.slotLru ∧ (s.takeHold n).lines = s.lines ∧
    (s.takeHold n).lineLru = s.lineLru ∧ (s.takeHold n).engine = s.engine ∧ (s.takeHold n).flash = s.flash ∧
    (s.takeHold n).arbiter = s.arbiter ∧ (s.takeHold n).portA = s.portA ∧ (s.takeHold n).portB = s.portB ∧
    (s.takeHold n).permitRequest = s.permitRequest ∧ (s.takeHold n).options = s.options ∧ (s.takeHold n).permit = s.permit ∧
    (s.takeHold n).rescan = s.rescan ∧ (s.takeHold n).service = s.service ∧ (s.takeHold n).nextEntry = s.nextEntry ∧
    (s.takeHold n).nextFree = s.nextFree ∧ (s.takeHold n).pending = s.pending :=
  ⟨rfl, rfl, rfl, rfl, rfl, rfl, rfl, rfl, rfl, rfl, rfl, rfl, rfl, rfl, rfl, rfl, rfl, rfl, rfl, rfl, rfl, rfl, rfl, rfl, rfl⟩

@[simp] theorem State.takeHold_slots (s : State) (n : Fin 8) :
    (s.takeHold n).slots = s.slots.set n { s.slots[n] with hold := s.slots[n].hold + 1 } := rfl

@[simp] theorem State.endHold_frame (s : State) (n : Fin 8) :
    (s.endHold n).supplies = s.supplies ∧ (s.endHold n).resetN = s.resetN ∧ (s.endHold n).fuseArray = s.fuseArray ∧
    (s.endHold n).fuseImage = s.fuseImage ∧ (s.endHold n).fuseController = s.fuseController ∧
    (s.endHold n).manifest = s.manifest ∧ (s.endHold n).images = s.images ∧ (s.endHold n).store = s.store ∧
    (s.endHold n).segMap = s.segMap ∧ (s.endHold n).lines = s.lines ∧ (s.endHold n).lineLru = s.lineLru ∧
    (s.endHold n).engine = s.engine ∧ (s.endHold n).flash = s.flash ∧ (s.endHold n).arbiter = s.arbiter ∧
    (s.endHold n).portA = s.portA ∧ (s.endHold n).portB = s.portB ∧ (s.endHold n).permitRequest = s.permitRequest ∧
    (s.endHold n).options = s.options ∧ (s.endHold n).permit = s.permit ∧ (s.endHold n).rescan = s.rescan ∧
    (s.endHold n).service = s.service ∧ (s.endHold n).nextEntry = s.nextEntry ∧ (s.endHold n).nextFree = s.nextFree ∧
    (s.endHold n).pending = s.pending :=
  ⟨rfl, rfl, rfl, rfl, rfl, rfl, rfl, rfl, rfl, rfl, rfl, rfl, rfl, rfl, rfl, rfl, rfl, rfl, rfl, rfl, rfl, rfl, rfl, rfl⟩

@[simp] theorem State.endHold_slots (s : State) (n : Fin 8) :
    (s.endHold n).slots = s.slots.set n { s.slots[n] with hold := s.slots[n].hold - 1 } := rfl

@[simp] theorem State.modLine_frame (s : State) (n : Fin 64) (f : Line → Line) :
    (s.modLine n f).supplies = s.supplies ∧ (s.modLine n f).resetN = s.resetN ∧ (s.modLine n f).fuseArray = s.fuseArray ∧
    (s.modLine n f).fuseImage = s.fuseImage ∧ (s.modLine n f).fuseController = s.fuseController ∧
    (s.modLine n f).manifest = s.manifest ∧ (s.modLine n f).images = s.images ∧ (s.modLine n f).store = s.store ∧
    (s.modLine n f).segMap = s.segMap ∧ (s.modLine n f).slots = s.slots ∧ (s.modLine n f).slotLru = s.slotLru ∧
    (s.modLine n f).lineLru = s.lineLru ∧ (s.modLine n f).engine = s.engine ∧ (s.modLine n f).flash = s.flash ∧
    (s.modLine n f).arbiter = s.arbiter ∧ (s.modLine n f).portA = s.portA ∧ (s.modLine n f).portB = s.portB ∧
    (s.modLine n f).permitRequest = s.permitRequest ∧ (s.modLine n f).options = s.options ∧
    (s.modLine n f).permit = s.permit ∧ (s.modLine n f).rescan = s.rescan ∧ (s.modLine n f).service = s.service ∧
    (s.modLine n f).nextEntry = s.nextEntry ∧ (s.modLine n f).nextFree = s.nextFree ∧ (s.modLine n f).pending = s.pending :=
  ⟨rfl, rfl, rfl, rfl, rfl, rfl, rfl, rfl, rfl, rfl, rfl, rfl, rfl, rfl, rfl, rfl, rfl, rfl, rfl, rfl, rfl, rfl, rfl, rfl, rfl⟩

@[simp] theorem State.modLine_lines (s : State) (n : Fin 64) (f : Line → Line) :
    (s.modLine n f).lines = s.lines.set n (f s.lines[n]) := rfl

@[simp] theorem State.touchLine_frame (s : State) (n : Fin 64) :
    (s.touchLine n).supplies = s.supplies ∧ (s.touchLine n).resetN = s.resetN ∧ (s.touchLine n).fuseArray = s.fuseArray ∧
    (s.touchLine n).fuseImage = s.fuseImage ∧ (s.touchLine n).fuseController = s.fuseController ∧
    (s.touchLine n).manifest = s.manifest ∧ (s.touchLine n).images = s.images ∧ (s.touchLine n).store = s.store ∧
    (s.touchLine n).segMap = s.segMap ∧ (s.touchLine n).slots = s.slots ∧ (s.touchLine n).slotLru = s.slotLru ∧
    (s.touchLine n).lines = s.lines ∧ (s.touchLine n).engine = s.engine ∧ (s.touchLine n).flash = s.flash ∧
    (s.touchLine n).arbiter = s.arbiter ∧ (s.touchLine n).portA = s.portA ∧ (s.touchLine n).portB = s.portB ∧
    (s.touchLine n).permitRequest = s.permitRequest ∧ (s.touchLine n).options = s.options ∧
    (s.touchLine n).permit = s.permit ∧ (s.touchLine n).rescan = s.rescan ∧ (s.touchLine n).service = s.service ∧
    (s.touchLine n).nextEntry = s.nextEntry ∧ (s.touchLine n).nextFree = s.nextFree ∧ (s.touchLine n).pending = s.pending :=
  ⟨rfl, rfl, rfl, rfl, rfl, rfl, rfl, rfl, rfl, rfl, rfl, rfl, rfl, rfl, rfl, rfl, rfl, rfl, rfl, rfl, rfl, rfl, rfl, rfl, rfl⟩

@[simp] theorem State.demoteLine_frame (s : State) (n : Fin 64) :
    (s.demoteLine n).supplies = s.supplies ∧ (s.demoteLine n).resetN = s.resetN ∧ (s.demoteLine n).fuseArray = s.fuseArray ∧
    (s.demoteLine n).fuseImage = s.fuseImage ∧ (s.demoteLine n).fuseController = s.fuseController ∧
    (s.demoteLine n).manifest = s.manifest ∧ (s.demoteLine n).images = s.images ∧ (s.demoteLine n).store = s.store ∧
    (s.demoteLine n).segMap = s.segMap ∧ (s.demoteLine n).slots = s.slots ∧ (s.demoteLine n).slotLru = s.slotLru ∧
    (s.demoteLine n).lines = s.lines ∧ (s.demoteLine n).engine = s.engine ∧ (s.demoteLine n).flash = s.flash ∧
    (s.demoteLine n).arbiter = s.arbiter ∧ (s.demoteLine n).portA = s.portA ∧ (s.demoteLine n).portB = s.portB ∧
    (s.demoteLine n).permitRequest = s.permitRequest ∧ (s.demoteLine n).options = s.options ∧
    (s.demoteLine n).permit = s.permit ∧ (s.demoteLine n).rescan = s.rescan ∧ (s.demoteLine n).service = s.service ∧
    (s.demoteLine n).nextEntry = s.nextEntry ∧ (s.demoteLine n).nextFree = s.nextFree ∧
    (s.demoteLine n).pending = s.pending :=
  ⟨rfl, rfl, rfl, rfl, rfl, rfl, rfl, rfl, rfl, rfl, rfl, rfl, rfl, rfl, rfl, rfl, rfl, rfl, rfl, rfl, rfl, rfl, rfl, rfl, rfl⟩

@[simp] theorem State.leaveLru_frame (s : State) (n : Fin 64) :
    (s.leaveLru n).supplies = s.supplies ∧ (s.leaveLru n).resetN = s.resetN ∧ (s.leaveLru n).fuseArray = s.fuseArray ∧
    (s.leaveLru n).fuseImage = s.fuseImage ∧ (s.leaveLru n).fuseController = s.fuseController ∧
    (s.leaveLru n).manifest = s.manifest ∧ (s.leaveLru n).images = s.images ∧ (s.leaveLru n).store = s.store ∧
    (s.leaveLru n).segMap = s.segMap ∧ (s.leaveLru n).slots = s.slots ∧ (s.leaveLru n).slotLru = s.slotLru ∧
    (s.leaveLru n).lines = s.lines ∧ (s.leaveLru n).engine = s.engine ∧ (s.leaveLru n).flash = s.flash ∧
    (s.leaveLru n).arbiter = s.arbiter ∧ (s.leaveLru n).portA = s.portA ∧ (s.leaveLru n).portB = s.portB ∧
    (s.leaveLru n).permitRequest = s.permitRequest ∧ (s.leaveLru n).options = s.options ∧ (s.leaveLru n).permit = s.permit ∧
    (s.leaveLru n).rescan = s.rescan ∧ (s.leaveLru n).service = s.service ∧ (s.leaveLru n).nextEntry = s.nextEntry ∧
    (s.leaveLru n).nextFree = s.nextFree ∧ (s.leaveLru n).pending = s.pending :=
  ⟨rfl, rfl, rfl, rfl, rfl, rfl, rfl, rfl, rfl, rfl, rfl, rfl, rfl, rfl, rfl, rfl, rfl, rfl, rfl, rfl, rfl, rfl, rfl, rfl, rfl⟩

@[simp] theorem State.freeLine_frame (s : State) (n : Fin 64) :
    (s.freeLine n).supplies = s.supplies ∧ (s.freeLine n).resetN = s.resetN ∧ (s.freeLine n).fuseArray = s.fuseArray ∧
    (s.freeLine n).fuseImage = s.fuseImage ∧ (s.freeLine n).fuseController = s.fuseController ∧
    (s.freeLine n).manifest = s.manifest ∧ (s.freeLine n).images = s.images ∧ (s.freeLine n).store = s.store ∧
    (s.freeLine n).segMap = s.segMap ∧ (s.freeLine n).slots = s.slots ∧ (s.freeLine n).slotLru = s.slotLru ∧
    (s.freeLine n).engine = s.engine ∧ (s.freeLine n).flash = s.flash ∧ (s.freeLine n).arbiter = s.arbiter ∧
    (s.freeLine n).portA = s.portA ∧ (s.freeLine n).portB = s.portB ∧ (s.freeLine n).permitRequest = s.permitRequest ∧
    (s.freeLine n).options = s.options ∧ (s.freeLine n).permit = s.permit ∧ (s.freeLine n).rescan = s.rescan ∧
    (s.freeLine n).service = s.service ∧ (s.freeLine n).nextEntry = s.nextEntry ∧ (s.freeLine n).nextFree = s.nextFree ∧
    (s.freeLine n).pending = s.pending :=
  ⟨rfl, rfl, rfl, rfl, rfl, rfl, rfl, rfl, rfl, rfl, rfl, rfl, rfl, rfl, rfl, rfl, rfl, rfl, rfl, rfl, rfl, rfl, rfl, rfl⟩

@[simp] theorem State.freeLine_lines (s : State) (n : Fin 64) : (s.freeLine n).lines = s.lines.set n s.lines[n].freed := rfl

@[simp] theorem State.takePin_frame (s : State) (n : Fin 64) (x : Bool) :
    (s.takePin n x).supplies = s.supplies ∧ (s.takePin n x).resetN = s.resetN ∧ (s.takePin n x).fuseArray = s.fuseArray ∧
    (s.takePin n x).fuseImage = s.fuseImage ∧ (s.takePin n x).fuseController = s.fuseController ∧
    (s.takePin n x).manifest = s.manifest ∧ (s.takePin n x).images = s.images ∧ (s.takePin n x).store = s.store ∧
    (s.takePin n x).segMap = s.segMap ∧ (s.takePin n x).slots = s.slots ∧ (s.takePin n x).slotLru = s.slotLru ∧
    (s.takePin n x).engine = s.engine ∧ (s.takePin n x).flash = s.flash ∧ (s.takePin n x).arbiter = s.arbiter ∧
    (s.takePin n x).portA = s.portA ∧ (s.takePin n x).portB = s.portB ∧ (s.takePin n x).permitRequest = s.permitRequest ∧
    (s.takePin n x).options = s.options ∧ (s.takePin n x).permit = s.permit ∧ (s.takePin n x).rescan = s.rescan ∧
    (s.takePin n x).service = s.service ∧ (s.takePin n x).nextEntry = s.nextEntry ∧ (s.takePin n x).nextFree = s.nextFree ∧
    (s.takePin n x).pending = s.pending :=
  ⟨rfl, rfl, rfl, rfl, rfl, rfl, rfl, rfl, rfl, rfl, rfl, rfl, rfl, rfl, rfl, rfl, rfl, rfl, rfl, rfl, rfl, rfl, rfl, rfl⟩

@[simp] theorem State.takePin_lines (s : State) (n : Fin 64) (x : Bool) : (s.takePin n x).lines =
    s.lines.set n { s.lines[n] with pins := s.lines[n].pins + 1, streamMark := s.lines[n].streamMark && x } := rfl

@[simp] theorem State.releasePin_frame (s : State) (n : Fin 64) (x : Bool) :
    (s.releasePin n x).supplies = s.supplies ∧ (s.releasePin n x).resetN = s.resetN ∧
    (s.releasePin n x).fuseArray = s.fuseArray ∧ (s.releasePin n x).fuseImage = s.fuseImage ∧
    (s.releasePin n x).fuseController = s.fuseController ∧ (s.releasePin n x).manifest = s.manifest ∧
    (s.releasePin n x).images = s.images ∧ (s.releasePin n x).store = s.store ∧ (s.releasePin n x).segMap = s.segMap ∧
    (s.releasePin n x).slots = s.slots ∧ (s.releasePin n x).slotLru = s.slotLru ∧ (s.releasePin n x).engine = s.engine ∧
    (s.releasePin n x).flash = s.flash ∧ (s.releasePin n x).arbiter = s.arbiter ∧ (s.releasePin n x).portA = s.portA ∧
    (s.releasePin n x).portB = s.portB ∧ (s.releasePin n x).permitRequest = s.permitRequest ∧
    (s.releasePin n x).options = s.options ∧ (s.releasePin n x).permit = s.permit ∧ (s.releasePin n x).rescan = s.rescan ∧
    (s.releasePin n x).service = s.service ∧ (s.releasePin n x).nextEntry = s.nextEntry ∧
    (s.releasePin n x).nextFree = s.nextFree ∧ (s.releasePin n x).pending = s.pending :=
  by
  unfold State.releasePin; dsimp only
  cases s.lines[n].state <;> dsimp only <;> (repeat' split) <;> simp

@[simp] theorem State.leaveWaiters_frame (s : State) (n : Fin 64) (p : Port) (id : Nat) :
    (s.leaveWaiters n p id).supplies = s.supplies ∧ (s.leaveWaiters n p id).resetN = s.resetN ∧
    (s.leaveWaiters n p id).fuseArray = s.fuseArray ∧ (s.leaveWaiters n p id).fuseImage = s.fuseImage ∧
    (s.leaveWaiters n p id).fuseController = s.fuseController ∧ (s.leaveWaiters n p id).manifest = s.manifest ∧
    (s.leaveWaiters n p id).images = s.images ∧ (s.leaveWaiters n p id).store = s.store ∧
    (s.leaveWaiters n p id).segMap = s.segMap ∧ (s.leaveWaiters n p id).slots = s.slots ∧
    (s.leaveWaiters n p id).slotLru = s.slotLru ∧ (s.leaveWaiters n p id).lineLru = s.lineLru ∧
    (s.leaveWaiters n p id).engine = s.engine ∧ (s.leaveWaiters n p id).flash = s.flash ∧
    (s.leaveWaiters n p id).arbiter = s.arbiter ∧ (s.leaveWaiters n p id).portA = s.portA ∧
    (s.leaveWaiters n p id).portB = s.portB ∧ (s.leaveWaiters n p id).permitRequest = s.permitRequest ∧
    (s.leaveWaiters n p id).options = s.options ∧ (s.leaveWaiters n p id).permit = s.permit ∧
    (s.leaveWaiters n p id).rescan = s.rescan ∧ (s.leaveWaiters n p id).service = s.service ∧
    (s.leaveWaiters n p id).nextEntry = s.nextEntry ∧ (s.leaveWaiters n p id).nextFree = s.nextFree ∧
    (s.leaveWaiters n p id).pending = s.pending :=
  ⟨rfl, rfl, rfl, rfl, rfl, rfl, rfl, rfl, rfl, rfl, rfl, rfl, rfl, rfl, rfl, rfl, rfl, rfl, rfl, rfl, rfl, rfl, rfl, rfl, rfl⟩

/-! ## Ports -/

@[simp] theorem State.modPort_frame (s : State) (p : Port) (f : PortUnit → PortUnit) :
    (s.modPort p f).supplies = s.supplies ∧ (s.modPort p f).resetN = s.resetN ∧ (s.modPort p f).fuseArray = s.fuseArray ∧
    (s.modPort p f).fuseImage = s.fuseImage ∧ (s.modPort p f).fuseController = s.fuseController ∧
    (s.modPort p f).manifest = s.manifest ∧ (s.modPort p f).images = s.images ∧ (s.modPort p f).store = s.store ∧
    (s.modPort p f).segMap = s.segMap ∧ (s.modPort p f).slots = s.slots ∧ (s.modPort p f).slotLru = s.slotLru ∧
    (s.modPort p f).lines = s.lines ∧ (s.modPort p f).lineLru = s.lineLru ∧ (s.modPort p f).engine = s.engine ∧
    (s.modPort p f).flash = s.flash ∧ (s.modPort p f).arbiter = s.arbiter ∧
    (s.modPort p f).permitRequest = s.permitRequest ∧ (s.modPort p f).options = s.options ∧
    (s.modPort p f).permit = s.permit ∧ (s.modPort p f).rescan = s.rescan ∧ (s.modPort p f).service = s.service ∧
    (s.modPort p f).nextEntry = s.nextEntry ∧ (s.modPort p f).nextFree = s.nextFree ∧ (s.modPort p f).pending = s.pending :=
  by cases p <;> simp [State.modPort]

/-- A change of one port changes that port alone. -/
@[simp] theorem State.modPort_port (s : State) (p q : Port) (f : PortUnit → PortUnit) :
    (s.modPort p f).port q = if q = p then f (s.port p) else s.port q := by
  cases p <;> cases q <;> rfl

theorem State.modPort_portA (s : State) (p : Port) (f : PortUnit → PortUnit) :
    (s.modPort p f).portA = if p = .a then f s.portA else s.portA := by cases p <;> rfl

theorem State.modPort_portB (s : State) (p : Port) (f : PortUnit → PortUnit) :
    (s.modPort p f).portB = if p = .b then f s.portB else s.portB := by cases p <;> rfl

@[simp] theorem State.modQueue_frame (s : State) (p : Port) (f : List Entry → List Entry) :
    (s.modQueue p f).supplies = s.supplies ∧ (s.modQueue p f).resetN = s.resetN ∧ (s.modQueue p f).fuseArray = s.fuseArray ∧
    (s.modQueue p f).fuseImage = s.fuseImage ∧ (s.modQueue p f).fuseController = s.fuseController ∧
    (s.modQueue p f).manifest = s.manifest ∧ (s.modQueue p f).images = s.images ∧ (s.modQueue p f).store = s.store ∧
    (s.modQueue p f).segMap = s.segMap ∧ (s.modQueue p f).slots = s.slots ∧ (s.modQueue p f).slotLru = s.slotLru ∧
    (s.modQueue p f).lines = s.lines ∧ (s.modQueue p f).lineLru = s.lineLru ∧ (s.modQueue p f).engine = s.engine ∧
    (s.modQueue p f).flash = s.flash ∧ (s.modQueue p f).arbiter = s.arbiter ∧
    (s.modQueue p f).permitRequest = s.permitRequest ∧ (s.modQueue p f).options = s.options ∧
    (s.modQueue p f).permit = s.permit ∧ (s.modQueue p f).rescan = s.rescan ∧ (s.modQueue p f).service = s.service ∧
    (s.modQueue p f).nextEntry = s.nextEntry ∧ (s.modQueue p f).nextFree = s.nextFree ∧
    (s.modQueue p f).pending = s.pending :=
  by simp [State.modQueue]

@[simp] theorem State.modQueue_port (s : State) (p q : Port) (f : List Entry → List Entry) :
    (s.modQueue p f).port q = if q = p then { s.port p with queue := f (s.port p).queue } else s.port q := by
  cases p <;> cases q <;> rfl

/-- An update that keeps both ports keeps the port of either name. -/
theorem State.port_congr {s t : State} (ha : t.portA = s.portA) (hb : t.portB = s.portB) (p : Port) : t.port p = s.port p := by
  cases p <;> simp [State.port, ha, hb]

@[simp] theorem State.stick_frame (s : State) (p : Port) (x : Sticky) :
    (s.stick p x).supplies = s.supplies ∧ (s.stick p x).resetN = s.resetN ∧ (s.stick p x).fuseArray = s.fuseArray ∧
    (s.stick p x).fuseImage = s.fuseImage ∧ (s.stick p x).fuseController = s.fuseController ∧
    (s.stick p x).manifest = s.manifest ∧ (s.stick p x).images = s.images ∧ (s.stick p x).store = s.store ∧
    (s.stick p x).segMap = s.segMap ∧ (s.stick p x).slots = s.slots ∧ (s.stick p x).slotLru = s.slotLru ∧
    (s.stick p x).lines = s.lines ∧ (s.stick p x).lineLru = s.lineLru ∧ (s.stick p x).engine = s.engine ∧
    (s.stick p x).flash = s.flash ∧ (s.stick p x).arbiter = s.arbiter ∧ (s.stick p x).permitRequest = s.permitRequest ∧
    (s.stick p x).options = s.options ∧ (s.stick p x).permit = s.permit ∧ (s.stick p x).rescan = s.rescan ∧
    (s.stick p x).nextEntry = s.nextEntry ∧ (s.stick p x).nextFree = s.nextFree ∧ (s.stick p x).pending = s.pending :=
  by simp [State.stick]

@[simp] theorem State.dropHold_frame (s : State) (p : Port) (id : Nat) (x : Bool) (h : SegHold) :
    (s.dropHold p id x h).supplies = s.supplies ∧ (s.dropHold p id x h).resetN = s.resetN ∧
    (s.dropHold p id x h).fuseArray = s.fuseArray ∧ (s.dropHold p id x h).fuseImage = s.fuseImage ∧
    (s.dropHold p id x h).fuseController = s.fuseController ∧ (s.dropHold p id x h).manifest = s.manifest ∧
    (s.dropHold p id x h).images = s.images ∧ (s.dropHold p id x h).store = s.store ∧
    (s.dropHold p id x h).segMap = s.segMap ∧ (s.dropHold p id x h).slots = s.slots ∧
    (s.dropHold p id x h).slotLru = s.slotLru ∧ (s.dropHold p id x h).engine = s.engine ∧
    (s.dropHold p id x h).flash = s.flash ∧ (s.dropHold p id x h).arbiter = s.arbiter ∧
    (s.dropHold p id x h).portA = s.portA ∧ (s.dropHold p id x h).portB = s.portB ∧
    (s.dropHold p id x h).permitRequest = s.permitRequest ∧ (s.dropHold p id x h).options = s.options ∧
    (s.dropHold p id x h).permit = s.permit ∧ (s.dropHold p id x h).rescan = s.rescan ∧
    (s.dropHold p id x h).service = s.service ∧ (s.dropHold p id x h).nextEntry = s.nextEntry ∧
    (s.dropHold p id x h).nextFree = s.nextFree ∧ (s.dropHold p id x h).pending = s.pending :=
  by unfold State.dropHold; split <;> simp

@[simp] theorem State.detach_frame (s : State) (p : Port) (e : Entry) (x : Bool) :
    (s.detach p e x).supplies = s.supplies ∧ (s.detach p e x).resetN = s.resetN ∧ (s.detach p e x).fuseArray = s.fuseArray ∧
    (s.detach p e x).fuseImage = s.fuseImage ∧ (s.detach p e x).fuseController = s.fuseController ∧
    (s.detach p e x).manifest = s.manifest ∧ (s.detach p e x).images = s.images ∧ (s.detach p e x).store = s.store ∧
    (s.detach p e x).segMap = s.segMap ∧ (s.detach p e x).slots = s.slots ∧ (s.detach p e x).slotLru = s.slotLru ∧
    (s.detach p e x).engine = s.engine ∧ (s.detach p e x).flash = s.flash ∧ (s.detach p e x).arbiter = s.arbiter ∧
    (s.detach p e x).portA = s.portA ∧ (s.detach p e x).portB = s.portB ∧ (s.detach p e x).permitRequest = s.permitRequest ∧
    (s.detach p e x).options = s.options ∧ (s.detach p e x).permit = s.permit ∧ (s.detach p e x).rescan = s.rescan ∧
    (s.detach p e x).service = s.service ∧ (s.detach p e x).nextEntry = s.nextEntry ∧
    (s.detach p e x).nextFree = s.nextFree ∧ (s.detach p e x).pending = s.pending :=
  by
  unfold State.detach
  exact ⟨foldl_keeps State.supplies _ (fun _ _ => by simp) _ _,
    foldl_keeps State.resetN _ (fun _ _ => by simp) _ _,
    foldl_keeps State.fuseArray _ (fun _ _ => by simp) _ _,
    foldl_keeps State.fuseImage _ (fun _ _ => by simp) _ _,
    foldl_keeps State.fuseController _ (fun _ _ => by simp) _ _,
    foldl_keeps State.manifest _ (fun _ _ => by simp) _ _,
    foldl_keeps State.images _ (fun _ _ => by simp) _ _,
    foldl_keeps State.store _ (fun _ _ => by simp) _ _,
    foldl_keeps State.segMap _ (fun _ _ => by simp) _ _,
    foldl_keeps State.slots _ (fun _ _ => by simp) _ _,
    foldl_keeps State.slotLru _ (fun _ _ => by simp) _ _,
    foldl_keeps State.engine _ (fun _ _ => by simp) _ _,
    foldl_keeps State.flash _ (fun _ _ => by simp) _ _,
    foldl_keeps State.arbiter _ (fun _ _ => by simp) _ _,
    foldl_keeps State.portA _ (fun _ _ => by simp) _ _,
    foldl_keeps State.portB _ (fun _ _ => by simp) _ _,
    foldl_keeps State.permitRequest _ (fun _ _ => by simp) _ _,
    foldl_keeps State.options _ (fun _ _ => by simp) _ _,
    foldl_keeps State.permit _ (fun _ _ => by simp) _ _,
    foldl_keeps State.rescan _ (fun _ _ => by simp) _ _,
    foldl_keeps State.service _ (fun _ _ => by simp) _ _,
    foldl_keeps State.nextEntry _ (fun _ _ => by simp) _ _,
    foldl_keeps State.nextFree _ (fun _ _ => by simp) _ _,
    foldl_keeps State.pending _ (fun _ _ => by simp) _ _⟩

@[simp] theorem State.endReadsOn_frame (s : State) (p : Port) (q : Entry → Bool) (x : RespStatus) :
    (s.endReadsOn p q x).supplies = s.supplies ∧ (s.endReadsOn p q x).resetN = s.resetN ∧
    (s.endReadsOn p q x).fuseArray = s.fuseArray ∧ (s.endReadsOn p q x).fuseImage = s.fuseImage ∧
    (s.endReadsOn p q x).fuseController = s.fuseController ∧ (s.endReadsOn p q x).manifest = s.manifest ∧
    (s.endReadsOn p q x).images = s.images ∧ (s.endReadsOn p q x).store = s.store ∧ (s.endReadsOn p q x).segMap = s.segMap ∧
    (s.endReadsOn p q x).slots = s.slots ∧ (s.endReadsOn p q x).slotLru = s.slotLru ∧
    (s.endReadsOn p q x).engine = s.engine ∧ (s.endReadsOn p q x).flash = s.flash ∧
    (s.endReadsOn p q x).arbiter = s.arbiter ∧ (s.endReadsOn p q x).permitRequest = s.permitRequest ∧
    (s.endReadsOn p q x).options = s.options ∧ (s.endReadsOn p q x).permit = s.permit ∧
    (s.endReadsOn p q x).rescan = s.rescan ∧ (s.endReadsOn p q x).service = s.service ∧
    (s.endReadsOn p q x).nextEntry = s.nextEntry ∧ (s.endReadsOn p q x).nextFree = s.nextFree ∧
    (s.endReadsOn p q x).pending = s.pending :=
  by
  simp only [State.endReadsOn, State.modQueue_frame]
  exact ⟨foldl_keeps State.supplies _ (fun _ _ => by simp) _ _,
    foldl_keeps State.resetN _ (fun _ _ => by simp) _ _,
    foldl_keeps State.fuseArray _ (fun _ _ => by simp) _ _,
    foldl_keeps State.fuseImage _ (fun _ _ => by simp) _ _,
    foldl_keeps State.fuseController _ (fun _ _ => by simp) _ _,
    foldl_keeps State.manifest _ (fun _ _ => by simp) _ _,
    foldl_keeps State.images _ (fun _ _ => by simp) _ _,
    foldl_keeps State.store _ (fun _ _ => by simp) _ _,
    foldl_keeps State.segMap _ (fun _ _ => by simp) _ _,
    foldl_keeps State.slots _ (fun _ _ => by simp) _ _,
    foldl_keeps State.slotLru _ (fun _ _ => by simp) _ _,
    foldl_keeps State.engine _ (fun _ _ => by simp) _ _,
    foldl_keeps State.flash _ (fun _ _ => by simp) _ _,
    foldl_keeps State.arbiter _ (fun _ _ => by simp) _ _,
    foldl_keeps State.permitRequest _ (fun _ _ => by simp) _ _,
    foldl_keeps State.options _ (fun _ _ => by simp) _ _,
    foldl_keeps State.permit _ (fun _ _ => by simp) _ _,
    foldl_keeps State.rescan _ (fun _ _ => by simp) _ _,
    foldl_keeps State.service _ (fun _ _ => by simp) _ _,
    foldl_keeps State.nextEntry _ (fun _ _ => by simp) _ _,
    foldl_keeps State.nextFree _ (fun _ _ => by simp) _ _,
    foldl_keeps State.pending _ (fun _ _ => by simp) _ _⟩

@[simp] theorem State.endReads_frame (s : State) (q : Entry → Bool) (x : RespStatus) :
    (s.endReads q x).supplies = s.supplies ∧ (s.endReads q x).resetN = s.resetN ∧ (s.endReads q x).fuseArray = s.fuseArray ∧
    (s.endReads q x).fuseImage = s.fuseImage ∧ (s.endReads q x).fuseController = s.fuseController ∧
    (s.endReads q x).manifest = s.manifest ∧ (s.endReads q x).images = s.images ∧ (s.endReads q x).store = s.store ∧
    (s.endReads q x).segMap = s.segMap ∧ (s.endReads q x).slots = s.slots ∧ (s.endReads q x).slotLru = s.slotLru ∧
    (s.endReads q x).engine = s.engine ∧ (s.endReads q x).flash = s.flash ∧ (s.endReads q x).arbiter = s.arbiter ∧
    (s.endReads q x).permitRequest = s.permitRequest ∧ (s.endReads q x).options = s.options ∧
    (s.endReads q x).permit = s.permit ∧ (s.endReads q x).rescan = s.rescan ∧ (s.endReads q x).service = s.service ∧
    (s.endReads q x).nextEntry = s.nextEntry ∧ (s.endReads q x).nextFree = s.nextFree ∧
    (s.endReads q x).pending = s.pending :=
  by simp [State.endReads]

@[simp] theorem State.emptyQueue_frame (s : State) (p : Port) :
    (s.emptyQueue p).supplies = s.supplies ∧ (s.emptyQueue p).resetN = s.resetN ∧ (s.emptyQueue p).fuseArray = s.fuseArray ∧
    (s.emptyQueue p).fuseImage = s.fuseImage ∧ (s.emptyQueue p).fuseController = s.fuseController ∧
    (s.emptyQueue p).manifest = s.manifest ∧ (s.emptyQueue p).images = s.images ∧ (s.emptyQueue p).store = s.store ∧
    (s.emptyQueue p).segMap = s.segMap ∧ (s.emptyQueue p).slots = s.slots ∧ (s.emptyQueue p).slotLru = s.slotLru ∧
    (s.emptyQueue p).engine = s.engine ∧ (s.emptyQueue p).flash = s.flash ∧ (s.emptyQueue p).arbiter = s.arbiter ∧
    (s.emptyQueue p).permitRequest = s.permitRequest ∧ (s.emptyQueue p).options = s.options ∧
    (s.emptyQueue p).permit = s.permit ∧ (s.emptyQueue p).rescan = s.rescan ∧ (s.emptyQueue p).service = s.service ∧
    (s.emptyQueue p).nextEntry = s.nextEntry ∧ (s.emptyQueue p).nextFree = s.nextFree ∧
    (s.emptyQueue p).pending = s.pending :=
  by
  simp only [State.emptyQueue, State.modQueue_frame]
  exact ⟨foldl_keeps State.supplies _ (fun _ _ => by simp) _ _,
    foldl_keeps State.resetN _ (fun _ _ => by simp) _ _,
    foldl_keeps State.fuseArray _ (fun _ _ => by simp) _ _,
    foldl_keeps State.fuseImage _ (fun _ _ => by simp) _ _,
    foldl_keeps State.fuseController _ (fun _ _ => by simp) _ _,
    foldl_keeps State.manifest _ (fun _ _ => by simp) _ _,
    foldl_keeps State.images _ (fun _ _ => by simp) _ _,
    foldl_keeps State.store _ (fun _ _ => by simp) _ _,
    foldl_keeps State.segMap _ (fun _ _ => by simp) _ _,
    foldl_keeps State.slots _ (fun _ _ => by simp) _ _,
    foldl_keeps State.slotLru _ (fun _ _ => by simp) _ _,
    foldl_keeps State.engine _ (fun _ _ => by simp) _ _,
    foldl_keeps State.flash _ (fun _ _ => by simp) _ _,
    foldl_keeps State.arbiter _ (fun _ _ => by simp) _ _,
    foldl_keeps State.permitRequest _ (fun _ _ => by simp) _ _,
    foldl_keeps State.options _ (fun _ _ => by simp) _ _,
    foldl_keeps State.permit _ (fun _ _ => by simp) _ _,
    foldl_keeps State.rescan _ (fun _ _ => by simp) _ _,
    foldl_keeps State.service _ (fun _ _ => by simp) _ _,
    foldl_keeps State.nextEntry _ (fun _ _ => by simp) _ _,
    foldl_keeps State.nextFree _ (fun _ _ => by simp) _ _,
    foldl_keeps State.pending _ (fun _ _ => by simp) _ _⟩

@[simp] theorem State.dropReadAhead_frame (s : State) (q : ReadAhead → Bool) :
    (s.dropReadAhead q).supplies = s.supplies ∧ (s.dropReadAhead q).resetN = s.resetN ∧
    (s.dropReadAhead q).fuseArray = s.fuseArray ∧ (s.dropReadAhead q).fuseImage = s.fuseImage ∧
    (s.dropReadAhead q).fuseController = s.fuseController ∧ (s.dropReadAhead q).manifest = s.manifest ∧
    (s.dropReadAhead q).images = s.images ∧ (s.dropReadAhead q).store = s.store ∧ (s.dropReadAhead q).segMap = s.segMap ∧
    (s.dropReadAhead q).slots = s.slots ∧ (s.dropReadAhead q).slotLru = s.slotLru ∧ (s.dropReadAhead q).lines = s.lines ∧
    (s.dropReadAhead q).lineLru = s.lineLru ∧ (s.dropReadAhead q).engine = s.engine ∧ (s.dropReadAhead q).flash = s.flash ∧
    (s.dropReadAhead q).portA = s.portA ∧ (s.dropReadAhead q).portB = s.portB ∧
    (s.dropReadAhead q).permitRequest = s.permitRequest ∧ (s.dropReadAhead q).options = s.options ∧
    (s.dropReadAhead q).permit = s.permit ∧ (s.dropReadAhead q).rescan = s.rescan ∧
    (s.dropReadAhead q).service = s.service ∧ (s.dropReadAhead q).nextEntry = s.nextEntry ∧
    (s.dropReadAhead q).nextFree = s.nextFree ∧ (s.dropReadAhead q).pending = s.pending :=
  ⟨rfl, rfl, rfl, rfl, rfl, rfl, rfl, rfl, rfl, rfl, rfl, rfl, rfl, rfl, rfl, rfl, rfl, rfl, rfl, rfl, rfl, rfl, rfl, rfl, rfl⟩

@[simp] theorem State.judgeRelease_frame (s : State) (p : Port) :
    (s.judgeRelease p).supplies = s.supplies ∧ (s.judgeRelease p).resetN = s.resetN ∧
    (s.judgeRelease p).fuseArray = s.fuseArray ∧ (s.judgeRelease p).fuseImage = s.fuseImage ∧
    (s.judgeRelease p).fuseController = s.fuseController ∧ (s.judgeRelease p).manifest = s.manifest ∧
    (s.judgeRelease p).images = s.images ∧ (s.judgeRelease p).store = s.store ∧ (s.judgeRelease p).segMap = s.segMap ∧
    (s.judgeRelease p).slots = s.slots ∧ (s.judgeRelease p).slotLru = s.slotLru ∧ (s.judgeRelease p).lines = s.lines ∧
    (s.judgeRelease p).lineLru = s.lineLru ∧ (s.judgeRelease p).engine = s.engine ∧ (s.judgeRelease p).flash = s.flash ∧
    (s.judgeRelease p).arbiter = s.arbiter ∧ (s.judgeRelease p).permitRequest = s.permitRequest ∧
    (s.judgeRelease p).options = s.options ∧ (s.judgeRelease p).permit = s.permit ∧ (s.judgeRelease p).rescan = s.rescan ∧
    (s.judgeRelease p).service = s.service ∧ (s.judgeRelease p).nextEntry = s.nextEntry ∧
    (s.judgeRelease p).nextFree = s.nextFree ∧ (s.judgeRelease p).pending = s.pending :=
  by unfold State.judgeRelease; split <;> simp

@[simp] theorem State.judgeReleases_frame (s : State) :
    (s.judgeReleases).supplies = s.supplies ∧ (s.judgeReleases).resetN = s.resetN ∧
    (s.judgeReleases).fuseArray = s.fuseArray ∧ (s.judgeReleases).fuseImage = s.fuseImage ∧
    (s.judgeReleases).fuseController = s.fuseController ∧ (s.judgeReleases).manifest = s.manifest ∧
    (s.judgeReleases).images = s.images ∧ (s.judgeReleases).store = s.store ∧ (s.judgeReleases).segMap = s.segMap ∧
    (s.judgeReleases).slots = s.slots ∧ (s.judgeReleases).slotLru = s.slotLru ∧ (s.judgeReleases).lines = s.lines ∧
    (s.judgeReleases).lineLru = s.lineLru ∧ (s.judgeReleases).engine = s.engine ∧ (s.judgeReleases).flash = s.flash ∧
    (s.judgeReleases).arbiter = s.arbiter ∧ (s.judgeReleases).permitRequest = s.permitRequest ∧
    (s.judgeReleases).options = s.options ∧ (s.judgeReleases).permit = s.permit ∧ (s.judgeReleases).rescan = s.rescan ∧
    (s.judgeReleases).service = s.service ∧ (s.judgeReleases).nextEntry = s.nextEntry ∧
    (s.judgeReleases).nextFree = s.nextFree ∧ (s.judgeReleases).pending = s.pending :=
  by simp [State.judgeReleases]

/-! ## The print permit -/

@[simp] theorem State.modPermit_frame (s : State) (f : PermitController → PermitController) :
    (s.modPermit f).supplies = s.supplies ∧ (s.modPermit f).resetN = s.resetN ∧ (s.modPermit f).fuseArray = s.fuseArray ∧
    (s.modPermit f).fuseImage = s.fuseImage ∧ (s.modPermit f).fuseController = s.fuseController ∧
    (s.modPermit f).manifest = s.manifest ∧ (s.modPermit f).images = s.images ∧ (s.modPermit f).store = s.store ∧
    (s.modPermit f).segMap = s.segMap ∧ (s.modPermit f).slots = s.slots ∧ (s.modPermit f).slotLru = s.slotLru ∧
    (s.modPermit f).lines = s.lines ∧ (s.modPermit f).lineLru = s.lineLru ∧ (s.modPermit f).engine = s.engine ∧
    (s.modPermit f).flash = s.flash ∧ (s.modPermit f).arbiter = s.arbiter ∧ (s.modPermit f).portA = s.portA ∧
    (s.modPermit f).portB = s.portB ∧ (s.modPermit f).permitRequest = s.permitRequest ∧
    (s.modPermit f).options = s.options ∧ (s.modPermit f).rescan = s.rescan ∧ (s.modPermit f).service = s.service ∧
    (s.modPermit f).nextEntry = s.nextEntry ∧ (s.modPermit f).nextFree = s.nextFree ∧ (s.modPermit f).pending = s.pending :=
  ⟨rfl, rfl, rfl, rfl, rfl, rfl, rfl, rfl, rfl, rfl, rfl, rfl, rfl, rfl, rfl, rfl, rfl, rfl, rfl, rfl, rfl, rfl, rfl, rfl, rfl⟩

@[simp] theorem State.modPermit_permit (s : State) (f : PermitController → PermitController) :
    (s.modPermit f).permit = f s.permit := rfl

@[simp] theorem State.riseThrough_frame (ls : List PermitLine) (s : State) :
    (State.riseThrough ls s).supplies = s.supplies ∧ (State.riseThrough ls s).resetN = s.resetN ∧
    (State.riseThrough ls s).fuseArray = s.fuseArray ∧ (State.riseThrough ls s).fuseImage = s.fuseImage ∧
    (State.riseThrough ls s).fuseController = s.fuseController ∧ (State.riseThrough ls s).manifest = s.manifest ∧
    (State.riseThrough ls s).images = s.images ∧ (State.riseThrough ls s).store = s.store ∧
    (State.riseThrough ls s).segMap = s.segMap ∧ (State.riseThrough ls s).slots = s.slots ∧
    (State.riseThrough ls s).slotLru = s.slotLru ∧ (State.riseThrough ls s).lines = s.lines ∧
    (State.riseThrough ls s).lineLru = s.lineLru ∧ (State.riseThrough ls s).engine = s.engine ∧
    (State.riseThrough ls s).flash = s.flash ∧ (State.riseThrough ls s).arbiter = s.arbiter ∧
    (State.riseThrough ls s).portA = s.portA ∧ (State.riseThrough ls s).portB = s.portB ∧
    (State.riseThrough ls s).permitRequest = s.permitRequest ∧ (State.riseThrough ls s).options = s.options ∧
    (State.riseThrough ls s).rescan = s.rescan ∧ (State.riseThrough ls s).nextEntry = s.nextEntry ∧
    (State.riseThrough ls s).nextFree = s.nextFree ∧ (State.riseThrough ls s).pending = s.pending := by
  induction ls generalizing s with
  | nil => simp [State.riseThrough]
  | cons l ls ih => unfold State.riseThrough; dsimp only; split <;> simp [ih]

@[simp] theorem State.startRise_frame (s : State) :
    (s.startRise).supplies = s.supplies ∧ (s.startRise).resetN = s.resetN ∧ (s.startRise).fuseArray = s.fuseArray ∧
    (s.startRise).fuseImage = s.fuseImage ∧ (s.startRise).fuseController = s.fuseController ∧
    (s.startRise).manifest = s.manifest ∧ (s.startRise).images = s.images ∧ (s.startRise).store = s.store ∧
    (s.startRise).segMap = s.segMap ∧ (s.startRise).slots = s.slots ∧ (s.startRise).slotLru = s.slotLru ∧
    (s.startRise).lines = s.lines ∧ (s.startRise).lineLru = s.lineLru ∧ (s.startRise).engine = s.engine ∧
    (s.startRise).flash = s.flash ∧ (s.startRise).arbiter = s.arbiter ∧ (s.startRise).portA = s.portA ∧
    (s.startRise).portB = s.portB ∧ (s.startRise).permitRequest = s.permitRequest ∧ (s.startRise).options = s.options ∧
    (s.startRise).rescan = s.rescan ∧ (s.startRise).nextEntry = s.nextEntry ∧ (s.startRise).nextFree = s.nextFree ∧
    (s.startRise).pending = s.pending :=
  by simp [State.startRise]

@[simp] theorem State.fallThrough_frame (ls : List PermitLine) (s : State) :
    (State.fallThrough ls s).supplies = s.supplies ∧ (State.fallThrough ls s).resetN = s.resetN ∧
    (State.fallThrough ls s).fuseArray = s.fuseArray ∧ (State.fallThrough ls s).fuseImage = s.fuseImage ∧
    (State.fallThrough ls s).fuseController = s.fuseController ∧ (State.fallThrough ls s).manifest = s.manifest ∧
    (State.fallThrough ls s).images = s.images ∧ (State.fallThrough ls s).store = s.store ∧
    (State.fallThrough ls s).segMap = s.segMap ∧ (State.fallThrough ls s).slots = s.slots ∧
    (State.fallThrough ls s).slotLru = s.slotLru ∧ (State.fallThrough ls s).lines = s.lines ∧
    (State.fallThrough ls s).lineLru = s.lineLru ∧ (State.fallThrough ls s).engine = s.engine ∧
    (State.fallThrough ls s).flash = s.flash ∧ (State.fallThrough ls s).arbiter = s.arbiter ∧
    (State.fallThrough ls s).portA = s.portA ∧ (State.fallThrough ls s).portB = s.portB ∧
    (State.fallThrough ls s).permitRequest = s.permitRequest ∧ (State.fallThrough ls s).options = s.options ∧
    (State.fallThrough ls s).rescan = s.rescan ∧ (State.fallThrough ls s).nextEntry = s.nextEntry ∧
    (State.fallThrough ls s).nextFree = s.nextFree ∧ (State.fallThrough ls s).pending = s.pending := by
  induction ls generalizing s with
  | nil => unfold State.fallThrough; dsimp only; split <;> simp
  | cons l ls ih => unfold State.fallThrough; dsimp only; split <;> simp [ih]

@[simp] theorem State.startFall_frame (s : State) :
    (s.startFall).supplies = s.supplies ∧ (s.startFall).resetN = s.resetN ∧ (s.startFall).fuseArray = s.fuseArray ∧
    (s.startFall).fuseImage = s.fuseImage ∧ (s.startFall).fuseController = s.fuseController ∧
    (s.startFall).manifest = s.manifest ∧ (s.startFall).images = s.images ∧ (s.startFall).store = s.store ∧
    (s.startFall).segMap = s.segMap ∧ (s.startFall).slots = s.slots ∧ (s.startFall).slotLru = s.slotLru ∧
    (s.startFall).lines = s.lines ∧ (s.startFall).lineLru = s.lineLru ∧ (s.startFall).engine = s.engine ∧
    (s.startFall).flash = s.flash ∧ (s.startFall).arbiter = s.arbiter ∧ (s.startFall).portA = s.portA ∧
    (s.startFall).portB = s.portB ∧ (s.startFall).permitRequest = s.permitRequest ∧ (s.startFall).options = s.options ∧
    (s.startFall).rescan = s.rescan ∧ (s.startFall).nextEntry = s.nextEntry ∧ (s.startFall).nextFree = s.nextFree ∧
    (s.startFall).pending = s.pending :=
  by simp [State.startFall]

@[simp] theorem State.judgePermit_frame (s : State) :
    (s.judgePermit).supplies = s.supplies ∧ (s.judgePermit).resetN = s.resetN ∧ (s.judgePermit).fuseArray = s.fuseArray ∧
    (s.judgePermit).fuseImage = s.fuseImage ∧ (s.judgePermit).fuseController = s.fuseController ∧
    (s.judgePermit).manifest = s.manifest ∧ (s.judgePermit).images = s.images ∧ (s.judgePermit).store = s.store ∧
    (s.judgePermit).segMap = s.segMap ∧ (s.judgePermit).slots = s.slots ∧ (s.judgePermit).slotLru = s.slotLru ∧
    (s.judgePermit).lines = s.lines ∧ (s.judgePermit).lineLru = s.lineLru ∧ (s.judgePermit).engine = s.engine ∧
    (s.judgePermit).flash = s.flash ∧ (s.judgePermit).arbiter = s.arbiter ∧ (s.judgePermit).portA = s.portA ∧
    (s.judgePermit).portB = s.portB ∧ (s.judgePermit).permitRequest = s.permitRequest ∧
    (s.judgePermit).options = s.options ∧ (s.judgePermit).rescan = s.rescan ∧ (s.judgePermit).nextEntry = s.nextEntry ∧
    (s.judgePermit).nextFree = s.nextFree ∧ (s.judgePermit).pending = s.pending :=
  by unfold State.judgePermit; split <;> (try split) <;> (try split) <;> simp

@[simp] theorem State.trip_frame (s : State) (c : TripCause) :
    (s.trip c).supplies = s.supplies ∧ (s.trip c).resetN = s.resetN ∧ (s.trip c).fuseArray = s.fuseArray ∧
    (s.trip c).fuseImage = s.fuseImage ∧ (s.trip c).fuseController = s.fuseController ∧ (s.trip c).manifest = s.manifest ∧
    (s.trip c).images = s.images ∧ (s.trip c).store = s.store ∧ (s.trip c).segMap = s.segMap ∧ (s.trip c).slots = s.slots ∧
    (s.trip c).slotLru = s.slotLru ∧ (s.trip c).lines = s.lines ∧ (s.trip c).lineLru = s.lineLru ∧
    (s.trip c).engine = s.engine ∧ (s.trip c).flash = s.flash ∧ (s.trip c).arbiter = s.arbiter ∧
    (s.trip c).portA = s.portA ∧ (s.trip c).portB = s.portB ∧ (s.trip c).permitRequest = s.permitRequest ∧
    (s.trip c).options = s.options ∧ (s.trip c).rescan = s.rescan ∧ (s.trip c).nextEntry = s.nextEntry ∧
    (s.trip c).nextFree = s.nextFree ∧ (s.trip c).pending = s.pending :=
  by unfold State.trip; split <;> simp

@[simp] theorem State.setRequest_frame (s : State) (x : Bool) :
    (s.setRequest x).supplies = s.supplies ∧ (s.setRequest x).resetN = s.resetN ∧ (s.setRequest x).fuseArray = s.fuseArray ∧
    (s.setRequest x).fuseImage = s.fuseImage ∧ (s.setRequest x).fuseController = s.fuseController ∧
    (s.setRequest x).manifest = s.manifest ∧ (s.setRequest x).images = s.images ∧ (s.setRequest x).store = s.store ∧
    (s.setRequest x).segMap = s.segMap ∧ (s.setRequest x).slots = s.slots ∧ (s.setRequest x).slotLru = s.slotLru ∧
    (s.setRequest x).lines = s.lines ∧ (s.setRequest x).lineLru = s.lineLru ∧ (s.setRequest x).engine = s.engine ∧
    (s.setRequest x).flash = s.flash ∧ (s.setRequest x).arbiter = s.arbiter ∧ (s.setRequest x).portA = s.portA ∧
    (s.setRequest x).portB = s.portB ∧ (s.setRequest x).options = s.options ∧ (s.setRequest x).rescan = s.rescan ∧
    (s.setRequest x).nextEntry = s.nextEntry ∧ (s.setRequest x).nextFree = s.nextFree ∧
    (s.setRequest x).pending = s.pending :=
  by simp [State.setRequest]

@[simp] theorem State.setRequest_permitRequest (s : State) (x : Bool) : (s.setRequest x).permitRequest = x := by
  simp [State.setRequest]

/-! ## Failures and completions -/

@[simp] theorem State.cutFrame_frame (s : State) (p : Port) :
    (s.cutFrame p).supplies = s.supplies ∧ (s.cutFrame p).resetN = s.resetN ∧ (s.cutFrame p).fuseArray = s.fuseArray ∧
    (s.cutFrame p).fuseImage = s.fuseImage ∧ (s.cutFrame p).fuseController = s.fuseController ∧
    (s.cutFrame p).manifest = s.manifest ∧ (s.cutFrame p).images = s.images ∧ (s.cutFrame p).store = s.store ∧
    (s.cutFrame p).segMap = s.segMap ∧ (s.cutFrame p).slots = s.slots ∧ (s.cutFrame p).slotLru = s.slotLru ∧
    (s.cutFrame p).lines = s.lines ∧ (s.cutFrame p).lineLru = s.lineLru ∧ (s.cutFrame p).engine = s.engine ∧
    (s.cutFrame p).flash = s.flash ∧ (s.cutFrame p).arbiter = s.arbiter ∧ (s.cutFrame p).permitRequest = s.permitRequest ∧
    (s.cutFrame p).options = s.options ∧ (s.cutFrame p).permit = s.permit ∧ (s.cutFrame p).rescan = s.rescan ∧
    (s.cutFrame p).service = s.service ∧ (s.cutFrame p).nextEntry = s.nextEntry ∧ (s.cutFrame p).pending = s.pending :=
  by unfold State.cutFrame; split <;> (try split) <;> simp

@[simp] theorem State.cutFrames_frame (s : State) :
    (s.cutFrames).supplies = s.supplies ∧ (s.cutFrames).resetN = s.resetN ∧ (s.cutFrames).fuseArray = s.fuseArray ∧
    (s.cutFrames).fuseImage = s.fuseImage ∧ (s.cutFrames).fuseController = s.fuseController ∧
    (s.cutFrames).manifest = s.manifest ∧ (s.cutFrames).images = s.images ∧ (s.cutFrames).store = s.store ∧
    (s.cutFrames).segMap = s.segMap ∧ (s.cutFrames).slots = s.slots ∧ (s.cutFrames).slotLru = s.slotLru ∧
    (s.cutFrames).lines = s.lines ∧ (s.cutFrames).lineLru = s.lineLru ∧ (s.cutFrames).engine = s.engine ∧
    (s.cutFrames).flash = s.flash ∧ (s.cutFrames).arbiter = s.arbiter ∧ (s.cutFrames).permitRequest = s.permitRequest ∧
    (s.cutFrames).options = s.options ∧ (s.cutFrames).permit = s.permit ∧ (s.cutFrames).rescan = s.rescan ∧
    (s.cutFrames).service = s.service ∧ (s.cutFrames).nextEntry = s.nextEntry ∧ (s.cutFrames).pending = s.pending :=
  by simp [State.cutFrames]

@[simp] theorem State.enterSwitching_frame (s : State) :
    (s.enterSwitching).supplies = s.supplies ∧ (s.enterSwitching).resetN = s.resetN ∧
    (s.enterSwitching).fuseArray = s.fuseArray ∧ (s.enterSwitching).fuseImage = s.fuseImage ∧
    (s.enterSwitching).fuseController = s.fuseController ∧ (s.enterSwitching).images = s.images ∧
    (s.enterSwitching).store = s.store ∧ (s.enterSwitching).segMap = s.segMap ∧ (s.enterSwitching).slotLru = s.slotLru ∧
    (s.enterSwitching).options = s.options ∧ (s.enterSwitching).permit = s.permit ∧ (s.enterSwitching).service = s.service ∧
    (s.enterSwitching).nextEntry = s.nextEntry ∧ (s.enterSwitching).pending = s.pending :=
  by simp [State.enterSwitching]

@[simp] theorem State.autoRecoveryCheck_frame (s : State) :
    (s.autoRecoveryCheck).supplies = s.supplies ∧ (s.autoRecoveryCheck).resetN = s.resetN ∧
    (s.autoRecoveryCheck).fuseArray = s.fuseArray ∧ (s.autoRecoveryCheck).fuseImage = s.fuseImage ∧
    (s.autoRecoveryCheck).fuseController = s.fuseController ∧ (s.autoRecoveryCheck).images = s.images ∧
    (s.autoRecoveryCheck).store = s.store ∧ (s.autoRecoveryCheck).segMap = s.segMap ∧
    (s.autoRecoveryCheck).slotLru = s.slotLru ∧ (s.autoRecoveryCheck).options = s.options ∧
    (s.autoRecoveryCheck).permit = s.permit ∧ (s.autoRecoveryCheck).service = s.service ∧
    (s.autoRecoveryCheck).nextEntry = s.nextEntry ∧ (s.autoRecoveryCheck).pending = s.pending :=
  by unfold State.autoRecoveryCheck; split <;> (try split) <;> simp

@[simp] theorem State.endSegment_frame (s : State) (i g : Nat) :
    (s.endSegment i g).supplies = s.supplies ∧ (s.endSegment i g).resetN = s.resetN ∧
    (s.endSegment i g).fuseArray = s.fuseArray ∧ (s.endSegment i g).fuseImage = s.fuseImage ∧
    (s.endSegment i g).fuseController = s.fuseController ∧ (s.endSegment i g).manifest = s.manifest ∧
    (s.endSegment i g).images = s.images ∧ (s.endSegment i g).store = s.store ∧ (s.endSegment i g).segMap = s.segMap ∧
    (s.endSegment i g).slots = s.slots ∧ (s.endSegment i g).slotLru = s.slotLru ∧ (s.endSegment i g).engine = s.engine ∧
    (s.endSegment i g).flash = s.flash ∧ (s.endSegment i g).permitRequest = s.permitRequest ∧
    (s.endSegment i g).options = s.options ∧ (s.endSegment i g).permit = s.permit ∧ (s.endSegment i g).rescan = s.rescan ∧
    (s.endSegment i g).service = s.service ∧ (s.endSegment i g).nextEntry = s.nextEntry ∧
    (s.endSegment i g).nextFree = s.nextFree ∧ (s.endSegment i g).pending = s.pending :=
  by simp [State.endSegment]

@[simp] theorem State.endBlock_frame (s : State) (i b : Nat) :
    (s.endBlock i b).supplies = s.supplies ∧ (s.endBlock i b).resetN = s.resetN ∧ (s.endBlock i b).fuseArray = s.fuseArray ∧
    (s.endBlock i b).fuseImage = s.fuseImage ∧ (s.endBlock i b).fuseController = s.fuseController ∧
    (s.endBlock i b).manifest = s.manifest ∧ (s.endBlock i b).images = s.images ∧ (s.endBlock i b).store = s.store ∧
    (s.endBlock i b).segMap = s.segMap ∧ (s.endBlock i b).slots = s.slots ∧ (s.endBlock i b).slotLru = s.slotLru ∧
    (s.endBlock i b).engine = s.engine ∧ (s.endBlock i b).flash = s.flash ∧
    (s.endBlock i b).permitRequest = s.permitRequest ∧ (s.endBlock i b).options = s.options ∧
    (s.endBlock i b).permit = s.permit ∧ (s.endBlock i b).rescan = s.rescan ∧ (s.endBlock i b).service = s.service ∧
    (s.endBlock i b).nextEntry = s.nextEntry ∧ (s.endBlock i b).nextFree = s.nextFree ∧
    (s.endBlock i b).pending = s.pending :=
  by simp [State.endBlock]

@[simp] theorem State.failSegment_frame (s : State) (i g : Nat) :
    (s.failSegment i g).supplies = s.supplies ∧ (s.failSegment i g).resetN = s.resetN ∧
    (s.failSegment i g).fuseArray = s.fuseArray ∧ (s.failSegment i g).fuseImage = s.fuseImage ∧
    (s.failSegment i g).fuseController = s.fuseController ∧ (s.failSegment i g).manifest = s.manifest ∧
    (s.failSegment i g).store = s.store ∧ (s.failSegment i g).slots = s.slots ∧ (s.failSegment i g).slotLru = s.slotLru ∧
    (s.failSegment i g).lines = s.lines ∧ (s.failSegment i g).lineLru = s.lineLru ∧ (s.failSegment i g).engine = s.engine ∧
    (s.failSegment i g).flash = s.flash ∧ (s.failSegment i g).arbiter = s.arbiter ∧ (s.failSegment i g).portA = s.portA ∧
    (s.failSegment i g).portB = s.portB ∧ (s.failSegment i g).permitRequest = s.permitRequest ∧
    (s.failSegment i g).options = s.options ∧ (s.failSegment i g).permit = s.permit ∧
    (s.failSegment i g).rescan = s.rescan ∧ (s.failSegment i g).service = s.service ∧
    (s.failSegment i g).nextEntry = s.nextEntry ∧ (s.failSegment i g).nextFree = s.nextFree ∧
    (s.failSegment i g).pending = s.pending :=
  by unfold State.failSegment; dsimp only; split <;> simp

@[simp] theorem State.verifySegment_frame (s : State) (i g : Nat) :
    (s.verifySegment i g).supplies = s.supplies ∧ (s.verifySegment i g).resetN = s.resetN ∧
    (s.verifySegment i g).fuseArray = s.fuseArray ∧ (s.verifySegment i g).fuseImage = s.fuseImage ∧
    (s.verifySegment i g).fuseController = s.fuseController ∧ (s.verifySegment i g).manifest = s.manifest ∧
    (s.verifySegment i g).store = s.store ∧ (s.verifySegment i g).slots = s.slots ∧
    (s.verifySegment i g).slotLru = s.slotLru ∧ (s.verifySegment i g).lines = s.lines ∧
    (s.verifySegment i g).lineLru = s.lineLru ∧ (s.verifySegment i g).engine = s.engine ∧
    (s.verifySegment i g).flash = s.flash ∧ (s.verifySegment i g).arbiter = s.arbiter ∧
    (s.verifySegment i g).permitRequest = s.permitRequest ∧ (s.verifySegment i g).options = s.options ∧
    (s.verifySegment i g).rescan = s.rescan ∧ (s.verifySegment i g).nextEntry = s.nextEntry ∧
    (s.verifySegment i g).nextFree = s.nextFree ∧ (s.verifySegment i g).pending = s.pending :=
  by
  unfold State.verifySegment
  split
  · dsimp only; split <;> (try split) <;> simp
  · simp

@[simp] theorem State.emptyTables_frame (s : State) :
    (s.emptyTables).supplies = s.supplies ∧ (s.emptyTables).resetN = s.resetN ∧ (s.emptyTables).fuseArray = s.fuseArray ∧
    (s.emptyTables).fuseImage = s.fuseImage ∧ (s.emptyTables).fuseController = s.fuseController ∧
    (s.emptyTables).manifest = s.manifest ∧ (s.emptyTables).engine = s.engine ∧ (s.emptyTables).flash = s.flash ∧
    (s.emptyTables).portA = s.portA ∧ (s.emptyTables).portB = s.portB ∧ (s.emptyTables).permitRequest = s.permitRequest ∧
    (s.emptyTables).options = s.options ∧ (s.emptyTables).permit = s.permit ∧ (s.emptyTables).service = s.service ∧
    (s.emptyTables).nextEntry = s.nextEntry ∧ (s.emptyTables).nextFree = s.nextFree ∧ (s.emptyTables).pending = s.pending :=
  ⟨rfl, rfl, rfl, rfl, rfl, rfl, rfl, rfl, rfl, rfl, rfl, rfl, rfl, rfl, rfl, rfl, rfl⟩

@[simp] theorem State.serviceRestart_frame (s : State) :
    (s.serviceRestart).supplies = s.supplies ∧ (s.serviceRestart).resetN = s.resetN ∧
    (s.serviceRestart).fuseArray = s.fuseArray ∧ (s.serviceRestart).fuseImage = s.fuseImage ∧
    (s.serviceRestart).fuseController = s.fuseController ∧ (s.serviceRestart).nextEntry = s.nextEntry ∧
    (s.serviceRestart).pending = s.pending :=
  by simp [State.serviceRestart]

@[simp] theorem State.cutBurn_frame (s : State) :
    (s.cutBurn).supplies = s.supplies ∧ (s.cutBurn).resetN = s.resetN ∧ (s.cutBurn).fuseImage = s.fuseImage ∧
    (s.cutBurn).manifest = s.manifest ∧ (s.cutBurn).images = s.images ∧ (s.cutBurn).store = s.store ∧
    (s.cutBurn).segMap = s.segMap ∧ (s.cutBurn).slots = s.slots ∧ (s.cutBurn).slotLru = s.slotLru ∧
    (s.cutBurn).lines = s.lines ∧ (s.cutBurn).lineLru = s.lineLru ∧ (s.cutBurn).engine = s.engine ∧
    (s.cutBurn).flash = s.flash ∧ (s.cutBurn).arbiter = s.arbiter ∧ (s.cutBurn).portA = s.portA ∧
    (s.cutBurn).portB = s.portB ∧ (s.cutBurn).permitRequest = s.permitRequest ∧ (s.cutBurn).options = s.options ∧
    (s.cutBurn).permit = s.permit ∧ (s.cutBurn).rescan = s.rescan ∧ (s.cutBurn).service = s.service ∧
    (s.cutBurn).nextEntry = s.nextEntry ∧ (s.cutBurn).pending = s.pending :=
  by unfold State.cutBurn; split <;> simp


end Sys2Proof.Machine
end

