-- ==== Sys2Proof/Laws/Ops.lean ====
section
/-! SUPPORT. Laws/Ops.lean: what each shared operation of the commands can do: the fields it leaves as they were. -/

namespace Sys2Proof.Machine

/-! ## Flash -/

@[simp] theorem State.beginFlash_frame (s : State) (op : FlashOp) (x : List FlashFrame) :
    (s.beginFlash op x).supplies = s.supplies ∧ (s.beginFlash op x).resetN = s.resetN ∧
    (s.beginFlash op x).fuseArray = s.fuseArray ∧ (s.beginFlash op x).fuseImage = s.fuseImage ∧
    (s.beginFlash op x).fuseController = s.fuseController ∧ (s.beginFlash op x).manifest = s.manifest ∧
    (s.beginFlash op x).images = s.images ∧ (s.beginFlash op x).store = s.store ∧ (s.beginFlash op x).segMap = s.segMap ∧
    (s.beginFlash op x).slots = s.slots ∧ (s.beginFlash op x).slotLru = s.slotLru ∧ (s.beginFlash op x).lines = s.lines ∧
    (s.beginFlash op x).lineLru = s.lineLru ∧ (s.beginFlash op x).engine = s.engine ∧
    (s.beginFlash op x).arbiter = s.arbiter ∧ (s.beginFlash op x).portA = s.portA ∧ (s.beginFlash op x).portB = s.portB ∧
    (s.beginFlash op x).permitRequest = s.permitRequest ∧ (s.beginFlash op x).options = s.options ∧
    (s.beginFlash op x).permit = s.permit ∧ (s.beginFlash op x).rescan = s.rescan ∧
    (s.beginFlash op x).service = s.service ∧ (s.beginFlash op x).nextEntry = s.nextEntry ∧
    (s.beginFlash op x).nextFree = s.nextFree ∧ (s.beginFlash op x).pending = s.pending :=
  ⟨rfl, rfl, rfl, rfl, rfl, rfl, rfl, rfl, rfl, rfl, rfl, rfl, rfl, rfl, rfl, rfl, rfl, rfl, rfl, rfl, rfl, rfl, rfl, rfl, rfl⟩

@[simp] theorem State.beginFlash_flash (s : State) (op : FlashOp) (x : List FlashFrame) : (s.beginFlash op x).flash = ⟨op, x⟩ := rfl

@[simp] theorem State.beginUnitRead_frame (s : State) (o : UnitOwner) (a : Nat) :
    (s.beginUnitRead o a).supplies = s.supplies ∧ (s.beginUnitRead o a).resetN = s.resetN ∧
    (s.beginUnitRead o a).fuseArray = s.fuseArray ∧ (s.beginUnitRead o a).fuseImage = s.fuseImage ∧
    (s.beginUnitRead o a).fuseController = s.fuseController ∧ (s.beginUnitRead o a).manifest = s.manifest ∧
    (s.beginUnitRead o a).images = s.images ∧ (s.beginUnitRead o a).store = s.store ∧
    (s.beginUnitRead o a).segMap = s.segMap ∧ (s.beginUnitRead o a).slots = s.slots ∧
    (s.beginUnitRead o a).slotLru = s.slotLru ∧ (s.beginUnitRead o a).lines = s.lines ∧
    (s.beginUnitRead o a).lineLru = s.lineLru ∧ (s.beginUnitRead o a).engine = s.engine ∧
    (s.beginUnitRead o a).arbiter = s.arbiter ∧ (s.beginUnitRead o a).portA = s.portA ∧
    (s.beginUnitRead o a).portB = s.portB ∧ (s.beginUnitRead o a).permitRequest = s.permitRequest ∧
    (s.beginUnitRead o a).options = s.options ∧ (s.beginUnitRead o a).permit = s.permit ∧
    (s.beginUnitRead o a).rescan = s.rescan ∧ (s.beginUnitRead o a).service = s.service ∧
    (s.beginUnitRead o a).nextEntry = s.nextEntry ∧ (s.beginUnitRead o a).nextFree = s.nextFree ∧
    (s.beginUnitRead o a).pending = s.pending :=
  ⟨rfl, rfl, rfl, rfl, rfl, rfl, rfl, rfl, rfl, rfl, rfl, rfl, rfl, rfl, rfl, rfl, rfl, rfl, rfl, rfl, rfl, rfl, rfl, rfl, rfl⟩

@[simp] theorem State.beginUnitRead_flash (s : State) (o : UnitOwner) (a : Nat) :
    (s.beginUnitRead o a).flash = ⟨.unitRead ⟨o, false⟩ a, [FlashFrame.readData a]⟩ := rfl

@[simp] theorem State.setSweep_frame (s : State) (i g : Nat) :
    (s.setSweep i g).supplies = s.supplies ∧ (s.setSweep i g).resetN = s.resetN ∧ (s.setSweep i g).fuseArray = s.fuseArray ∧
    (s.setSweep i g).fuseImage = s.fuseImage ∧ (s.setSweep i g).fuseController = s.fuseController ∧
    (s.setSweep i g).manifest = s.manifest ∧ (s.setSweep i g).images = s.images ∧ (s.setSweep i g).store = s.store ∧
    (s.setSweep i g).segMap = s.segMap ∧ (s.setSweep i g).slots = s.slots ∧ (s.setSweep i g).slotLru = s.slotLru ∧
    (s.setSweep i g).lines = s.lines ∧ (s.setSweep i g).lineLru = s.lineLru ∧ (s.setSweep i g).engine = s.engine ∧
    (s.setSweep i g).flash = s.flash ∧ (s.setSweep i g).portA = s.portA ∧ (s.setSweep i g).portB = s.portB ∧
    (s.setSweep i g).permitRequest = s.permitRequest ∧ (s.setSweep i g).options = s.options ∧
    (s.setSweep i g).permit = s.permit ∧ (s.setSweep i g).rescan = s.rescan ∧ (s.setSweep i g).service = s.service ∧
    (s.setSweep i g).nextEntry = s.nextEntry ∧ (s.setSweep i g).nextFree = s.nextFree ∧
    (s.setSweep i g).pending = s.pending :=
  ⟨rfl, rfl, rfl, rfl, rfl, rfl, rfl, rfl, rfl, rfl, rfl, rfl, rfl, rfl, rfl, rfl, rfl, rfl, rfl, rfl, rfl, rfl, rfl, rfl, rfl⟩

@[simp] theorem State.joinOutstanding_frame (s : State) (t : SegTag) (n : Fin 64) :
    (s.joinOutstanding t n).supplies = s.supplies ∧ (s.joinOutstanding t n).resetN = s.resetN ∧
    (s.joinOutstanding t n).fuseArray = s.fuseArray ∧ (s.joinOutstanding t n).fuseImage = s.fuseImage ∧
    (s.joinOutstanding t n).fuseController = s.fuseController ∧ (s.joinOutstanding t n).manifest = s.manifest ∧
    (s.joinOutstanding t n).images = s.images ∧ (s.joinOutstanding t n).store = s.store ∧
    (s.joinOutstanding t n).segMap = s.segMap ∧ (s.joinOutstanding t n).slots = s.slots ∧
    (s.joinOutstanding t n).slotLru = s.slotLru ∧ (s.joinOutstanding t n).lines = s.lines ∧
    (s.joinOutstanding t n).lineLru = s.lineLru ∧ (s.joinOutstanding t n).engine = s.engine ∧
    (s.joinOutstanding t n).flash = s.flash ∧ (s.joinOutstanding t n).arbiter = s.arbiter ∧
    (s.joinOutstanding t n).permitRequest = s.permitRequest ∧ (s.joinOutstanding t n).options = s.options ∧
    (s.joinOutstanding t n).permit = s.permit ∧ (s.joinOutstanding t n).rescan = s.rescan ∧
    (s.joinOutstanding t n).service = s.service ∧ (s.joinOutstanding t n).nextEntry = s.nextEntry ∧
    (s.joinOutstanding t n).nextFree = s.nextFree ∧ (s.joinOutstanding t n).pending = s.pending :=
  by simp [State.joinOutstanding]

@[simp] theorem State.passTurn_frame (s : State) (p : Port) :
    (s.passTurn p).supplies = s.supplies ∧ (s.passTurn p).resetN = s.resetN ∧ (s.passTurn p).fuseArray = s.fuseArray ∧
    (s.passTurn p).fuseImage = s.fuseImage ∧ (s.passTurn p).fuseController = s.fuseController ∧
    (s.passTurn p).manifest = s.manifest ∧ (s.passTurn p).images = s.images ∧ (s.passTurn p).store = s.store ∧
    (s.passTurn p).segMap = s.segMap ∧ (s.passTurn p).slots = s.slots ∧ (s.passTurn p).slotLru = s.slotLru ∧
    (s.passTurn p).lines = s.lines ∧ (s.passTurn p).lineLru = s.lineLru ∧ (s.passTurn p).engine = s.engine ∧
    (s.passTurn p).flash = s.flash ∧ (s.passTurn p).portA = s.portA ∧ (s.passTurn p).portB = s.portB ∧
    (s.passTurn p).permitRequest = s.permitRequest ∧ (s.passTurn p).options = s.options ∧ (s.passTurn p).permit = s.permit ∧
    (s.passTurn p).rescan = s.rescan ∧ (s.passTurn p).service = s.service ∧ (s.passTurn p).nextEntry = s.nextEntry ∧
    (s.passTurn p).nextFree = s.nextFree ∧ (s.passTurn p).pending = s.pending :=
  ⟨rfl, rfl, rfl, rfl, rfl, rfl, rfl, rfl, rfl, rfl, rfl, rfl, rfl, rfl, rfl, rfl, rfl, rfl, rfl, rfl, rfl, rfl, rfl, rfl, rfl⟩

@[simp] theorem State.afterFill_frame (s : State) (c : FillClass) (t : SegTag) (p : Port) :
    (s.afterFill c t p).supplies = s.supplies ∧ (s.afterFill c t p).resetN = s.resetN ∧
    (s.afterFill c t p).fuseArray = s.fuseArray ∧ (s.afterFill c t p).fuseImage = s.fuseImage ∧
    (s.afterFill c t p).fuseController = s.fuseController ∧ (s.afterFill c t p).manifest = s.manifest ∧
    (s.afterFill c t p).images = s.images ∧ (s.afterFill c t p).store = s.store ∧ (s.afterFill c t p).segMap = s.segMap ∧
    (s.afterFill c t p).slots = s.slots ∧ (s.afterFill c t p).slotLru = s.slotLru ∧ (s.afterFill c t p).lines = s.lines ∧
    (s.afterFill c t p).lineLru = s.lineLru ∧ (s.afterFill c t p).engine = s.engine ∧ (s.afterFill c t p).flash = s.flash ∧
    (s.afterFill c t p).portA = s.portA ∧ (s.afterFill c t p).portB = s.portB ∧
    (s.afterFill c t p).permitRequest = s.permitRequest ∧ (s.afterFill c t p).options = s.options ∧
    (s.afterFill c t p).permit = s.permit ∧ (s.afterFill c t p).rescan = s.rescan ∧
    (s.afterFill c t p).service = s.service ∧ (s.afterFill c t p).nextEntry = s.nextEntry ∧
    (s.afterFill c t p).nextFree = s.nextFree ∧ (s.afterFill c t p).pending = s.pending :=
  by cases c <;> simp [State.afterFill]

@[simp] theorem State.grantFill_frame (s : State) (c : FillClass) (t : SegTag) (n : Fin 64) (k : Fin 8) (p : Port) (e : Option Nat) :
    (s.grantFill c t n k p e).supplies = s.supplies ∧ (s.grantFill c t n k p e).resetN = s.resetN ∧
    (s.grantFill c t n k p e).fuseArray = s.fuseArray ∧ (s.grantFill c t n k p e).fuseImage = s.fuseImage ∧
    (s.grantFill c t n k p e).fuseController = s.fuseController ∧ (s.grantFill c t n k p e).manifest = s.manifest ∧
    (s.grantFill c t n k p e).images = s.images ∧ (s.grantFill c t n k p e).store = s.store ∧
    (s.grantFill c t n k p e).segMap = s.segMap ∧ (s.grantFill c t n k p e).slotLru = s.slotLru ∧
    (s.grantFill c t n k p e).engine = s.engine ∧ (s.grantFill c t n k p e).permitRequest = s.permitRequest ∧
    (s.grantFill c t n k p e).options = s.options ∧ (s.grantFill c t n k p e).permit = s.permit ∧
    (s.grantFill c t n k p e).rescan = s.rescan ∧ (s.grantFill c t n k p e).service = s.service ∧
    (s.grantFill c t n k p e).nextEntry = s.nextEntry ∧ (s.grantFill c t n k p e).nextFree = s.nextFree ∧
    (s.grantFill c t n k p e).pending = s.pending :=
  by simp [State.grantFill]

@[simp] theorem State.grantBlock_frame (s : State) (t : BlockTag) (k : Fin 8) (d : Option Port) :
    (s.grantBlock t k d).supplies = s.supplies ∧ (s.grantBlock t k d).resetN = s.resetN ∧
    (s.grantBlock t k d).fuseArray = s.fuseArray ∧ (s.grantBlock t k d).fuseImage = s.fuseImage ∧
    (s.grantBlock t k d).fuseController = s.fuseController ∧ (s.grantBlock t k d).manifest = s.manifest ∧
    (s.grantBlock t k d).images = s.images ∧ (s.grantBlock t k d).store = s.store ∧ (s.grantBlock t k d).segMap = s.segMap ∧
    (s.grantBlock t k d).lines = s.lines ∧ (s.grantBlock t k d).lineLru = s.lineLru ∧
    (s.grantBlock t k d).engine = s.engine ∧ (s.grantBlock t k d).portA = s.portA ∧ (s.grantBlock t k d).portB = s.portB ∧
    (s.grantBlock t k d).permitRequest = s.permitRequest ∧ (s.grantBlock t k d).options = s.options ∧
    (s.grantBlock t k d).permit = s.permit ∧ (s.grantBlock t k d).rescan = s.rescan ∧
    (s.grantBlock t k d).service = s.service ∧ (s.grantBlock t k d).nextEntry = s.nextEntry ∧
    (s.grantBlock t k d).nextFree = s.nextFree ∧ (s.grantBlock t k d).pending = s.pending :=
  by cases d <;> simp [State.grantBlock]

@[simp] theorem State.grantRescan_frame (s : State) (t : SegTag) (k : Fin 8) (w : Bool) :
    (s.grantRescan t k w).supplies = s.supplies ∧ (s.grantRescan t k w).resetN = s.resetN ∧
    (s.grantRescan t k w).fuseArray = s.fuseArray ∧ (s.grantRescan t k w).fuseImage = s.fuseImage ∧
    (s.grantRescan t k w).fuseController = s.fuseController ∧ (s.grantRescan t k w).manifest = s.manifest ∧
    (s.grantRescan t k w).images = s.images ∧ (s.grantRescan t k w).store = s.store ∧
    (s.grantRescan t k w).segMap = s.segMap ∧ (s.grantRescan t k w).slotLru = s.slotLru ∧
    (s.grantRescan t k w).lines = s.lines ∧ (s.grantRescan t k w).lineLru = s.lineLru ∧
    (s.grantRescan t k w).engine = s.engine ∧ (s.grantRescan t k w).arbiter = s.arbiter ∧
    (s.grantRescan t k w).portA = s.portA ∧ (s.grantRescan t k w).portB = s.portB ∧
    (s.grantRescan t k w).permitRequest = s.permitRequest ∧ (s.grantRescan t k w).options = s.options ∧
    (s.grantRescan t k w).permit = s.permit ∧ (s.grantRescan t k w).nextEntry = s.nextEntry ∧
    (s.grantRescan t k w).nextFree = s.nextFree ∧ (s.grantRescan t k w).pending = s.pending :=
  by cases w <;> simp [State.grantRescan]

@[simp] theorem State.markGranted_frame (s : State) (id : Nat) :
    (s.markGranted id).supplies = s.supplies ∧ (s.markGranted id).resetN = s.resetN ∧
    (s.markGranted id).fuseArray = s.fuseArray ∧ (s.markGranted id).fuseImage = s.fuseImage ∧
    (s.markGranted id).fuseController = s.fuseController ∧ (s.markGranted id).manifest = s.manifest ∧
    (s.markGranted id).images = s.images ∧ (s.markGranted id).store = s.store ∧ (s.markGranted id).segMap = s.segMap ∧
    (s.markGranted id).slots = s.slots ∧ (s.markGranted id).slotLru = s.slotLru ∧ (s.markGranted id).lines = s.lines ∧
    (s.markGranted id).lineLru = s.lineLru ∧ (s.markGranted id).engine = s.engine ∧ (s.markGranted id).flash = s.flash ∧
    (s.markGranted id).arbiter = s.arbiter ∧ (s.markGranted id).permitRequest = s.permitRequest ∧
    (s.markGranted id).options = s.options ∧ (s.markGranted id).permit = s.permit ∧ (s.markGranted id).rescan = s.rescan ∧
    (s.markGranted id).service = s.service ∧ (s.markGranted id).nextEntry = s.nextEntry ∧
    (s.markGranted id).nextFree = s.nextFree ∧ (s.markGranted id).pending = s.pending :=
  by simp [State.markGranted]

@[simp] theorem State.applyGrant_frame (s : State) (g : Grant) :
    (s.applyGrant g).supplies = s.supplies ∧ (s.applyGrant g).resetN = s.resetN ∧ (s.applyGrant g).fuseArray = s.fuseArray ∧
    (s.applyGrant g).fuseImage = s.fuseImage ∧ (s.applyGrant g).fuseController = s.fuseController ∧
    (s.applyGrant g).manifest = s.manifest ∧ (s.applyGrant g).images = s.images ∧ (s.applyGrant g).store = s.store ∧
    (s.applyGrant g).segMap = s.segMap ∧ (s.applyGrant g).engine = s.engine ∧
    (s.applyGrant g).permitRequest = s.permitRequest ∧ (s.applyGrant g).options = s.options ∧
    (s.applyGrant g).permit = s.permit ∧ (s.applyGrant g).nextEntry = s.nextEntry ∧ (s.applyGrant g).nextFree = s.nextFree ∧
    (s.applyGrant g).pending = s.pending :=
  by cases g <;> simp [State.applyGrant]

@[simp] theorem State.grantBackground_frame (s : State) :
    (s.grantBackground).supplies = s.supplies ∧ (s.grantBackground).resetN = s.resetN ∧
    (s.grantBackground).fuseArray = s.fuseArray ∧ (s.grantBackground).fuseImage = s.fuseImage ∧
    (s.grantBackground).fuseController = s.fuseController ∧ (s.grantBackground).manifest = s.manifest ∧
    (s.grantBackground).images = s.images ∧ (s.grantBackground).store = s.store ∧ (s.grantBackground).segMap = s.segMap ∧
    (s.grantBackground).engine = s.engine ∧ (s.grantBackground).permitRequest = s.permitRequest ∧
    (s.grantBackground).options = s.options ∧ (s.grantBackground).permit = s.permit ∧
    (s.grantBackground).nextEntry = s.nextEntry ∧ (s.grantBackground).nextFree = s.nextFree ∧
    (s.grantBackground).pending = s.pending :=
  by unfold State.grantBackground; dsimp only; (repeat' split) <;> simp

@[simp] theorem State.selectServing_frame (s : State) :
    (s.selectServing).supplies = s.supplies ∧ (s.selectServing).resetN = s.resetN ∧
    (s.selectServing).fuseArray = s.fuseArray ∧ (s.selectServing).fuseImage = s.fuseImage ∧
    (s.selectServing).fuseController = s.fuseController ∧ (s.selectServing).manifest = s.manifest ∧
    (s.selectServing).images = s.images ∧ (s.selectServing).store = s.store ∧ (s.selectServing).segMap = s.segMap ∧
    (s.selectServing).engine = s.engine ∧ (s.selectServing).permitRequest = s.permitRequest ∧
    (s.selectServing).options = s.options ∧ (s.selectServing).permit = s.permit ∧
    (s.selectServing).nextEntry = s.nextEntry ∧ (s.selectServing).nextFree = s.nextFree ∧
    (s.selectServing).pending = s.pending :=
  by unfold State.selectServing; split <;> simp

@[simp] theorem State.fillOwner_frame (s : State) (o : UnitOwner) (d : Bytes) :
    (s.fillOwner o d).supplies = s.supplies ∧ (s.fillOwner o d).resetN = s.resetN ∧
    (s.fillOwner o d).fuseArray = s.fuseArray ∧ (s.fillOwner o d).fuseImage = s.fuseImage ∧
    (s.fillOwner o d).fuseController = s.fuseController ∧ (s.fillOwner o d).manifest = s.manifest ∧
    (s.fillOwner o d).images = s.images ∧ (s.fillOwner o d).store = s.store ∧ (s.fillOwner o d).segMap = s.segMap ∧
    (s.fillOwner o d).slotLru = s.slotLru ∧ (s.fillOwner o d).lineLru = s.lineLru ∧ (s.fillOwner o d).engine = s.engine ∧
    (s.fillOwner o d).flash = s.flash ∧ (s.fillOwner o d).arbiter = s.arbiter ∧ (s.fillOwner o d).portA = s.portA ∧
    (s.fillOwner o d).portB = s.portB ∧ (s.fillOwner o d).permitRequest = s.permitRequest ∧
    (s.fillOwner o d).options = s.options ∧ (s.fillOwner o d).permit = s.permit ∧ (s.fillOwner o d).service = s.service ∧
    (s.fillOwner o d).nextEntry = s.nextEntry ∧ (s.fillOwner o d).nextFree = s.nextFree ∧
    (s.fillOwner o d).pending = s.pending :=
  by cases o <;> simp [State.fillOwner]

@[simp] theorem State.decideEntry_frame (s : State) (id : Nat) (x : RespStatus) :
    (s.decideEntry id x).supplies = s.supplies ∧ (s.decideEntry id x).resetN = s.resetN ∧
    (s.decideEntry id x).fuseArray = s.fuseArray ∧ (s.decideEntry id x).fuseImage = s.fuseImage ∧
    (s.decideEntry id x).fuseController = s.fuseController ∧ (s.decideEntry id x).manifest = s.manifest ∧
    (s.decideEntry id x).images = s.images ∧ (s.decideEntry id x).store = s.store ∧ (s.decideEntry id x).segMap = s.segMap ∧
    (s.decideEntry id x).slots = s.slots ∧ (s.decideEntry id x).slotLru = s.slotLru ∧ (s.decideEntry id x).lines = s.lines ∧
    (s.decideEntry id x).lineLru = s.lineLru ∧ (s.decideEntry id x).engine = s.engine ∧
    (s.decideEntry id x).flash = s.flash ∧ (s.decideEntry id x).arbiter = s.arbiter ∧
    (s.decideEntry id x).permitRequest = s.permitRequest ∧ (s.decideEntry id x).options = s.options ∧
    (s.decideEntry id x).permit = s.permit ∧ (s.decideEntry id x).rescan = s.rescan ∧
    (s.decideEntry id x).service = s.service ∧ (s.decideEntry id x).nextEntry = s.nextEntry ∧
    (s.decideEntry id x).nextFree = s.nextFree ∧ (s.decideEntry id x).pending = s.pending :=
  by simp [State.decideEntry]

@[simp] theorem State.limitExpired_frame (s : State) (id : Nat) :
    (s.limitExpired id).supplies = s.supplies ∧ (s.limitExpired id).resetN = s.resetN ∧
    (s.limitExpired id).fuseArray = s.fuseArray ∧ (s.limitExpired id).fuseImage = s.fuseImage ∧
    (s.limitExpired id).fuseController = s.fuseController ∧ (s.limitExpired id).manifest = s.manifest ∧
    (s.limitExpired id).images = s.images ∧ (s.limitExpired id).store = s.store ∧ (s.limitExpired id).segMap = s.segMap ∧
    (s.limitExpired id).slots = s.slots ∧ (s.limitExpired id).slotLru = s.slotLru ∧ (s.limitExpired id).lines = s.lines ∧
    (s.limitExpired id).lineLru = s.lineLru ∧ (s.limitExpired id).engine = s.engine ∧
    (s.limitExpired id).arbiter = s.arbiter ∧ (s.limitExpired id).permitRequest = s.permitRequest ∧
    (s.limitExpired id).options = s.options ∧ (s.limitExpired id).permit = s.permit ∧
    (s.limitExpired id).rescan = s.rescan ∧ (s.limitExpired id).service = s.service ∧
    (s.limitExpired id).nextEntry = s.nextEntry ∧ (s.limitExpired id).nextFree = s.nextFree ∧
    (s.limitExpired id).pending = s.pending :=
  by simp [State.limitExpired]

@[simp] theorem State.beginFuseLoad_frame (s : State) :
    (s.beginFuseLoad).supplies = s.supplies ∧ (s.beginFuseLoad).resetN = s.resetN ∧
    (s.beginFuseLoad).fuseArray = s.fuseArray ∧ (s.beginFuseLoad).fuseImage = s.fuseImage ∧
    (s.beginFuseLoad).fuseController = s.fuseController ∧ (s.beginFuseLoad).images = s.images ∧
    (s.beginFuseLoad).store = s.store ∧ (s.beginFuseLoad).segMap = s.segMap ∧ (s.beginFuseLoad).slots = s.slots ∧
    (s.beginFuseLoad).slotLru = s.slotLru ∧ (s.beginFuseLoad).lines = s.lines ∧ (s.beginFuseLoad).lineLru = s.lineLru ∧
    (s.beginFuseLoad).engine = s.engine ∧ (s.beginFuseLoad).arbiter = s.arbiter ∧ (s.beginFuseLoad).portA = s.portA ∧
    (s.beginFuseLoad).portB = s.portB ∧ (s.beginFuseLoad).permitRequest = s.permitRequest ∧
    (s.beginFuseLoad).options = s.options ∧ (s.beginFuseLoad).permit = s.permit ∧ (s.beginFuseLoad).rescan = s.rescan ∧
    (s.beginFuseLoad).service = s.service ∧ (s.beginFuseLoad).nextEntry = s.nextEntry ∧
    (s.beginFuseLoad).nextFree = s.nextFree ∧ (s.beginFuseLoad).pending = s.pending :=
  ⟨rfl, rfl, rfl, rfl, rfl, rfl, rfl, rfl, rfl, rfl, rfl, rfl, rfl, rfl, rfl, rfl, rfl, rfl, rfl, rfl, rfl, rfl, rfl, rfl⟩

/-! ## Verification -/

@[simp] theorem State.advanceEngine_frame (s : State) :
    (s.advanceEngine).supplies = s.supplies ∧ (s.advanceEngine).resetN = s.resetN ∧
    (s.advanceEngine).fuseArray = s.fuseArray ∧ (s.advanceEngine).fuseImage = s.fuseImage ∧
    (s.advanceEngine).fuseController = s.fuseController ∧ (s.advanceEngine).manifest = s.manifest ∧
    (s.advanceEngine).images = s.images ∧ (s.advanceEngine).store = s.store ∧ (s.advanceEngine).segMap = s.segMap ∧
    (s.advanceEngine).slots = s.slots ∧ (s.advanceEngine).slotLru = s.slotLru ∧ (s.advanceEngine).lines = s.lines ∧
    (s.advanceEngine).lineLru = s.lineLru ∧ (s.advanceEngine).flash = s.flash ∧ (s.advanceEngine).arbiter = s.arbiter ∧
    (s.advanceEngine).portA = s.portA ∧ (s.advanceEngine).portB = s.portB ∧
    (s.advanceEngine).permitRequest = s.permitRequest ∧ (s.advanceEngine).options = s.options ∧
    (s.advanceEngine).permit = s.permit ∧ (s.advanceEngine).rescan = s.rescan ∧ (s.advanceEngine).service = s.service ∧
    (s.advanceEngine).nextEntry = s.nextEntry ∧ (s.advanceEngine).nextFree = s.nextFree ∧
    (s.advanceEngine).pending = s.pending :=
  ⟨rfl, rfl, rfl, rfl, rfl, rfl, rfl, rfl, rfl, rfl, rfl, rfl, rfl, rfl, rfl, rfl, rfl, rfl, rfl, rfl, rfl, rfl, rfl, rfl, rfl⟩

@[simp] theorem State.blockGood_frame (s : State) (n : Fin 8) :
    (s.blockGood n).supplies = s.supplies ∧ (s.blockGood n).resetN = s.resetN ∧ (s.blockGood n).fuseArray = s.fuseArray ∧
    (s.blockGood n).fuseImage = s.fuseImage ∧ (s.blockGood n).fuseController = s.fuseController ∧
    (s.blockGood n).manifest = s.manifest ∧ (s.blockGood n).images = s.images ∧ (s.blockGood n).store = s.store ∧
    (s.blockGood n).segMap = s.segMap ∧ (s.blockGood n).lines = s.lines ∧ (s.blockGood n).lineLru = s.lineLru ∧
    (s.blockGood n).engine = s.engine ∧ (s.blockGood n).flash = s.flash ∧ (s.blockGood n).arbiter = s.arbiter ∧
    (s.blockGood n).portA = s.portA ∧ (s.blockGood n).portB = s.portB ∧ (s.blockGood n).permitRequest = s.permitRequest ∧
    (s.blockGood n).options = s.options ∧ (s.blockGood n).permit = s.permit ∧ (s.blockGood n).rescan = s.rescan ∧
    (s.blockGood n).service = s.service ∧ (s.blockGood n).nextEntry = s.nextEntry ∧ (s.blockGood n).nextFree = s.nextFree ∧
    (s.blockGood n).pending = s.pending :=
  by simp [State.blockGood]

@[simp] theorem State.pinWaiter_frame (s : State) (n : Fin 64) (g : Nat) (w : Waiter) :
    (s.pinWaiter n g w).supplies = s.supplies ∧ (s.pinWaiter n g w).resetN = s.resetN ∧
    (s.pinWaiter n g w).fuseArray = s.fuseArray ∧ (s.pinWaiter n g w).fuseImage = s.fuseImage ∧
    (s.pinWaiter n g w).fuseController = s.fuseController ∧ (s.pinWaiter n g w).manifest = s.manifest ∧
    (s.pinWaiter n g w).images = s.images ∧ (s.pinWaiter n g w).store = s.store ∧ (s.pinWaiter n g w).segMap = s.segMap ∧
    (s.pinWaiter n g w).slots = s.slots ∧ (s.pinWaiter n g w).slotLru = s.slotLru ∧ (s.pinWaiter n g w).engine = s.engine ∧
    (s.pinWaiter n g w).flash = s.flash ∧ (s.pinWaiter n g w).arbiter = s.arbiter ∧
    (s.pinWaiter n g w).permitRequest = s.permitRequest ∧ (s.pinWaiter n g w).options = s.options ∧
    (s.pinWaiter n g w).permit = s.permit ∧ (s.pinWaiter n g w).rescan = s.rescan ∧
    (s.pinWaiter n g w).service = s.service ∧ (s.pinWaiter n g w).nextEntry = s.nextEntry ∧
    (s.pinWaiter n g w).nextFree = s.nextFree ∧ (s.pinWaiter n g w).pending = s.pending :=
  by unfold State.pinWaiter; split <;> simp

@[simp] theorem State.enterLru_frame (s : State) (n : Fin 64) :
    (s.enterLru n).supplies = s.supplies ∧ (s.enterLru n).resetN = s.resetN ∧ (s.enterLru n).fuseArray = s.fuseArray ∧
    (s.enterLru n).fuseImage = s.fuseImage ∧ (s.enterLru n).fuseController = s.fuseController ∧
    (s.enterLru n).manifest = s.manifest ∧ (s.enterLru n).images = s.images ∧ (s.enterLru n).store = s.store ∧
    (s.enterLru n).segMap = s.segMap ∧ (s.enterLru n).slots = s.slots ∧ (s.enterLru n).slotLru = s.slotLru ∧
    (s.enterLru n).lines = s.lines ∧ (s.enterLru n).engine = s.engine ∧ (s.enterLru n).flash = s.flash ∧
    (s.enterLru n).arbiter = s.arbiter ∧ (s.enterLru n).portA = s.portA ∧ (s.enterLru n).portB = s.portB ∧
    (s.enterLru n).permitRequest = s.permitRequest ∧ (s.enterLru n).options = s.options ∧ (s.enterLru n).permit = s.permit ∧
    (s.enterLru n).rescan = s.rescan ∧ (s.enterLru n).service = s.service ∧ (s.enterLru n).nextEntry = s.nextEntry ∧
    (s.enterLru n).nextFree = s.nextFree ∧ (s.enterLru n).pending = s.pending :=
  by unfold State.enterLru; split <;> simp

@[simp] theorem State.completeLine_frame (s : State) (n : Fin 64) (g : Nat) :
    (s.completeLine n g).supplies = s.supplies ∧ (s.completeLine n g).resetN = s.resetN ∧
    (s.completeLine n g).fuseArray = s.fuseArray ∧ (s.completeLine n g).fuseImage = s.fuseImage ∧
    (s.completeLine n g).fuseController = s.fuseController ∧ (s.completeLine n g).manifest = s.manifest ∧
    (s.completeLine n g).images = s.images ∧ (s.completeLine n g).store = s.store ∧ (s.completeLine n g).segMap = s.segMap ∧
    (s.completeLine n g).slots = s.slots ∧ (s.completeLine n g).slotLru = s.slotLru ∧
    (s.completeLine n g).engine = s.engine ∧ (s.completeLine n g).flash = s.flash ∧
    (s.completeLine n g).arbiter = s.arbiter ∧ (s.completeLine n g).permitRequest = s.permitRequest ∧
    (s.completeLine n g).options = s.options ∧ (s.completeLine n g).permit = s.permit ∧
    (s.completeLine n g).rescan = s.rescan ∧ (s.completeLine n g).service = s.service ∧
    (s.completeLine n g).nextEntry = s.nextEntry ∧ (s.completeLine n g).nextFree = s.nextFree ∧
    (s.completeLine n g).pending = s.pending :=
  by
  simp only [State.completeLine]
  exact ⟨(foldl_keeps State.supplies _ (fun _ _ => by simp) _ _).trans (by simp),
    (foldl_keeps State.resetN _ (fun _ _ => by simp) _ _).trans (by simp),
    (foldl_keeps State.fuseArray _ (fun _ _ => by simp) _ _).trans (by simp),
    (foldl_keeps State.fuseImage _ (fun _ _ => by simp) _ _).trans (by simp),
    (foldl_keeps State.fuseController _ (fun _ _ => by simp) _ _).trans (by simp),
    (foldl_keeps State.manifest _ (fun _ _ => by simp) _ _).trans (by simp),
    (foldl_keeps State.images _ (fun _ _ => by simp) _ _).trans (by simp),
    (foldl_keeps State.store _ (fun _ _ => by simp) _ _).trans (by simp),
    (foldl_keeps State.segMap _ (fun _ _ => by simp) _ _).trans (by simp),
    (foldl_keeps State.slots _ (fun _ _ => by simp) _ _).trans (by simp),
    (foldl_keeps State.slotLru _ (fun _ _ => by simp) _ _).trans (by simp),
    (foldl_keeps State.engine _ (fun _ _ => by simp) _ _).trans (by simp),
    (foldl_keeps State.flash _ (fun _ _ => by simp) _ _).trans (by simp),
    (foldl_keeps State.arbiter _ (fun _ _ => by simp) _ _).trans (by simp),
    (foldl_keeps State.permitRequest _ (fun _ _ => by simp) _ _).trans (by simp),
    (foldl_keeps State.options _ (fun _ _ => by simp) _ _).trans (by simp),
    (foldl_keeps State.permit _ (fun _ _ => by simp) _ _).trans (by simp),
    (foldl_keeps State.rescan _ (fun _ _ => by simp) _ _).trans (by simp),
    (foldl_keeps State.service _ (fun _ _ => by simp) _ _).trans (by simp),
    (foldl_keeps State.nextEntry _ (fun _ _ => by simp) _ _).trans (by simp),
    (foldl_keeps State.nextFree _ (fun _ _ => by simp) _ _).trans (by simp),
    (foldl_keeps State.pending _ (fun _ _ => by simp) _ _).trans (by simp)⟩

@[simp] theorem State.segmentGood_frame (s : State) (n : Fin 64) (t : SegTag) (k : Fin 8) :
    (s.segmentGood n t k).supplies = s.supplies ∧ (s.segmentGood n t k).resetN = s.resetN ∧
    (s.segmentGood n t k).fuseArray = s.fuseArray ∧ (s.segmentGood n t k).fuseImage = s.fuseImage ∧
    (s.segmentGood n t k).fuseController = s.fuseController ∧ (s.segmentGood n t k).manifest = s.manifest ∧
    (s.segmentGood n t k).store = s.store ∧ (s.segmentGood n t k).engine = s.engine ∧
    (s.segmentGood n t k).flash = s.flash ∧ (s.segmentGood n t k).arbiter = s.arbiter ∧
    (s.segmentGood n t k).permitRequest = s.permitRequest ∧ (s.segmentGood n t k).options = s.options ∧
    (s.segmentGood n t k).rescan = s.rescan ∧ (s.segmentGood n t k).nextEntry = s.nextEntry ∧
    (s.segmentGood n t k).nextFree = s.nextFree ∧ (s.segmentGood n t k).pending = s.pending :=
  by simp [State.segmentGood]

@[simp] theorem State.emptyBuffer_frame (s : State) :
    (s.emptyBuffer).supplies = s.supplies ∧ (s.emptyBuffer).resetN = s.resetN ∧ (s.emptyBuffer).fuseArray = s.fuseArray ∧
    (s.emptyBuffer).fuseImage = s.fuseImage ∧ (s.emptyBuffer).fuseController = s.fuseController ∧
    (s.emptyBuffer).manifest = s.manifest ∧ (s.emptyBuffer).images = s.images ∧ (s.emptyBuffer).store = s.store ∧
    (s.emptyBuffer).segMap = s.segMap ∧ (s.emptyBuffer).slots = s.slots ∧ (s.emptyBuffer).slotLru = s.slotLru ∧
    (s.emptyBuffer).lines = s.lines ∧ (s.emptyBuffer).lineLru = s.lineLru ∧ (s.emptyBuffer).engine = s.engine ∧
    (s.emptyBuffer).flash = s.flash ∧ (s.emptyBuffer).arbiter = s.arbiter ∧ (s.emptyBuffer).portA = s.portA ∧
    (s.emptyBuffer).portB = s.portB ∧ (s.emptyBuffer).permitRequest = s.permitRequest ∧
    (s.emptyBuffer).options = s.options ∧ (s.emptyBuffer).permit = s.permit ∧ (s.emptyBuffer).service = s.service ∧
    (s.emptyBuffer).nextEntry = s.nextEntry ∧ (s.emptyBuffer).nextFree = s.nextFree ∧ (s.emptyBuffer).pending = s.pending :=
  by simp [State.emptyBuffer]

@[simp] theorem State.staleLine_frame (s : State) (t : SegTag) :
    (s.staleLine t).supplies = s.supplies ∧ (s.staleLine t).resetN = s.resetN ∧ (s.staleLine t).fuseArray = s.fuseArray ∧
    (s.staleLine t).fuseImage = s.fuseImage ∧ (s.staleLine t).fuseController = s.fuseController ∧
    (s.staleLine t).manifest = s.manifest ∧ (s.staleLine t).images = s.images ∧ (s.staleLine t).store = s.store ∧
    (s.staleLine t).segMap = s.segMap ∧ (s.staleLine t).slots = s.slots ∧ (s.staleLine t).slotLru = s.slotLru ∧
    (s.staleLine t).engine = s.engine ∧ (s.staleLine t).flash = s.flash ∧ (s.staleLine t).arbiter = s.arbiter ∧
    (s.staleLine t).portA = s.portA ∧ (s.staleLine t).portB = s.portB ∧ (s.staleLine t).permitRequest = s.permitRequest ∧
    (s.staleLine t).options = s.options ∧ (s.staleLine t).permit = s.permit ∧ (s.staleLine t).rescan = s.rescan ∧
    (s.staleLine t).service = s.service ∧ (s.staleLine t).nextEntry = s.nextEntry ∧ (s.staleLine t).nextFree = s.nextFree ∧
    (s.staleLine t).pending = s.pending :=
  by unfold State.staleLine; split <;> (try split) <;> simp

/-! ## Frames -/

@[simp] theorem State.openFrame_frame (s : State) (p : Port) :
    (s.openFrame p).supplies = s.supplies ∧ (s.openFrame p).resetN = s.resetN ∧ (s.openFrame p).fuseArray = s.fuseArray ∧
    (s.openFrame p).fuseImage = s.fuseImage ∧ (s.openFrame p).fuseController = s.fuseController ∧
    (s.openFrame p).manifest = s.manifest ∧ (s.openFrame p).images = s.images ∧ (s.openFrame p).store = s.store ∧
    (s.openFrame p).segMap = s.segMap ∧ (s.openFrame p).slots = s.slots ∧ (s.openFrame p).slotLru = s.slotLru ∧
    (s.openFrame p).lines = s.lines ∧ (s.openFrame p).lineLru = s.lineLru ∧ (s.openFrame p).engine = s.engine ∧
    (s.openFrame p).flash = s.flash ∧ (s.openFrame p).arbiter = s.arbiter ∧
    (s.openFrame p).permitRequest = s.permitRequest ∧ (s.openFrame p).options = s.options ∧
    (s.openFrame p).permit = s.permit ∧ (s.openFrame p).rescan = s.rescan ∧ (s.openFrame p).service = s.service ∧
    (s.openFrame p).nextEntry = s.nextEntry ∧ (s.openFrame p).nextFree = s.nextFree ∧ (s.openFrame p).pending = s.pending :=
  by unfold State.openFrame; simp

@[simp] theorem State.dropHead_frame (s : State) (p : Port) :
    (s.dropHead p).supplies = s.supplies ∧ (s.dropHead p).resetN = s.resetN ∧ (s.dropHead p).fuseArray = s.fuseArray ∧
    (s.dropHead p).fuseImage = s.fuseImage ∧ (s.dropHead p).fuseController = s.fuseController ∧
    (s.dropHead p).manifest = s.manifest ∧ (s.dropHead p).images = s.images ∧ (s.dropHead p).store = s.store ∧
    (s.dropHead p).segMap = s.segMap ∧ (s.dropHead p).slots = s.slots ∧ (s.dropHead p).slotLru = s.slotLru ∧
    (s.dropHead p).engine = s.engine ∧ (s.dropHead p).flash = s.flash ∧ (s.dropHead p).arbiter = s.arbiter ∧
    (s.dropHead p).permitRequest = s.permitRequest ∧ (s.dropHead p).options = s.options ∧ (s.dropHead p).permit = s.permit ∧
    (s.dropHead p).rescan = s.rescan ∧ (s.dropHead p).nextEntry = s.nextEntry ∧ (s.dropHead p).nextFree = s.nextFree ∧
    (s.dropHead p).pending = s.pending :=
  by unfold State.dropHead; split <;> simp

@[simp] theorem State.takeHeldExpiry_frame (s : State) (p : Port) (f : SpiFrame) :
    (s.takeHeldExpiry p f).supplies = s.supplies ∧ (s.takeHeldExpiry p f).resetN = s.resetN ∧
    (s.takeHeldExpiry p f).fuseArray = s.fuseArray ∧ (s.takeHeldExpiry p f).fuseImage = s.fuseImage ∧
    (s.takeHeldExpiry p f).fuseController = s.fuseController ∧ (s.takeHeldExpiry p f).manifest = s.manifest ∧
    (s.takeHeldExpiry p f).images = s.images ∧ (s.takeHeldExpiry p f).store = s.store ∧
    (s.takeHeldExpiry p f).segMap = s.segMap ∧ (s.takeHeldExpiry p f).slots = s.slots ∧
    (s.takeHeldExpiry p f).slotLru = s.slotLru ∧ (s.takeHeldExpiry p f).engine = s.engine ∧
    (s.takeHeldExpiry p f).flash = s.flash ∧ (s.takeHeldExpiry p f).arbiter = s.arbiter ∧
    (s.takeHeldExpiry p f).permitRequest = s.permitRequest ∧ (s.takeHeldExpiry p f).options = s.options ∧
    (s.takeHeldExpiry p f).permit = s.permit ∧ (s.takeHeldExpiry p f).rescan = s.rescan ∧
    (s.takeHeldExpiry p f).nextEntry = s.nextEntry ∧ (s.takeHeldExpiry p f).nextFree = s.nextFree ∧
    (s.takeHeldExpiry p f).pending = s.pending :=
  by unfold State.takeHeldExpiry; split <;> simp

@[simp] theorem State.listAhead_frame (s : State) (p : Port) (i g : Nat) :
    (s.listAhead p i g).supplies = s.supplies ∧ (s.listAhead p i g).resetN = s.resetN ∧
    (s.listAhead p i g).fuseArray = s.fuseArray ∧ (s.listAhead p i g).fuseImage = s.fuseImage ∧
    (s.listAhead p i g).fuseController = s.fuseController ∧ (s.listAhead p i g).manifest = s.manifest ∧
    (s.listAhead p i g).images = s.images ∧ (s.listAhead p i g).store = s.store ∧ (s.listAhead p i g).segMap = s.segMap ∧
    (s.listAhead p i g).slots = s.slots ∧ (s.listAhead p i g).slotLru = s.slotLru ∧ (s.listAhead p i g).lines = s.lines ∧
    (s.listAhead p i g).lineLru = s.lineLru ∧ (s.listAhead p i g).engine = s.engine ∧ (s.listAhead p i g).flash = s.flash ∧
    (s.listAhead p i g).portA = s.portA ∧ (s.listAhead p i g).portB = s.portB ∧
    (s.listAhead p i g).permitRequest = s.permitRequest ∧ (s.listAhead p i g).options = s.options ∧
    (s.listAhead p i g).permit = s.permit ∧ (s.listAhead p i g).rescan = s.rescan ∧
    (s.listAhead p i g).service = s.service ∧ (s.listAhead p i g).nextEntry = s.nextEntry ∧
    (s.listAhead p i g).nextFree = s.nextFree ∧ (s.listAhead p i g).pending = s.pending :=
  by unfold State.listAhead; split <;> simp

@[simp] theorem State.listAheadFrom_frame (s : State) (p : Port) (i g : Nat) :
    (s.listAheadFrom p i g).supplies = s.supplies ∧ (s.listAheadFrom p i g).resetN = s.resetN ∧
    (s.listAheadFrom p i g).fuseArray = s.fuseArray ∧ (s.listAheadFrom p i g).fuseImage = s.fuseImage ∧
    (s.listAheadFrom p i g).fuseController = s.fuseController ∧ (s.listAheadFrom p i g).manifest = s.manifest ∧
    (s.listAheadFrom p i g).images = s.images ∧ (s.listAheadFrom p i g).store = s.store ∧
    (s.listAheadFrom p i g).segMap = s.segMap ∧ (s.listAheadFrom p i g).slots = s.slots ∧
    (s.listAheadFrom p i g).slotLru = s.slotLru ∧ (s.listAheadFrom p i g).lines = s.lines ∧
    (s.listAheadFrom p i g).lineLru = s.lineLru ∧ (s.listAheadFrom p i g).engine = s.engine ∧
    (s.listAheadFrom p i g).flash = s.flash ∧ (s.listAheadFrom p i g).portA = s.portA ∧
    (s.listAheadFrom p i g).portB = s.portB ∧ (s.listAheadFrom p i g).permitRequest = s.permitRequest ∧
    (s.listAheadFrom p i g).options = s.options ∧ (s.listAheadFrom p i g).permit = s.permit ∧
    (s.listAheadFrom p i g).rescan = s.rescan ∧ (s.listAheadFrom p i g).service = s.service ∧
    (s.listAheadFrom p i g).nextEntry = s.nextEntry ∧ (s.listAheadFrom p i g).nextFree = s.nextFree ∧
    (s.listAheadFrom p i g).pending = s.pending :=
  by
  unfold State.listAheadFrom
  split
  · exact ⟨foldl_keeps State.supplies _ (fun _ _ => by simp) _ _,
      foldl_keeps State.resetN _ (fun _ _ => by simp) _ _,
      foldl_keeps State.fuseArray _ (fun _ _ => by simp) _ _,
      foldl_keeps State.fuseImage _ (fun _ _ => by simp) _ _,
      foldl_keeps State.fuseController _ (fun _ _ => by simp) _ _,
      foldl_keeps State.manifest _ (fun _ _ => by simp) _ _,
      foldl_keeps State.images _ (fun _ _ => by simp) _ _,
      foldl_keeps State.store _ (fun _ _ => by simp) _ _,
      foldl_keeps State.segMap _ (fun _ _ => by simp) _ _,
      foldl_keeps State.slots _ (fun _ _ => by simp) _ _,
      foldl_keeps State.slotLru _ (fun _ _ => by simp) _ _,
      foldl_keeps State.lines _ (fun _ _ => by simp) _ _,
      foldl_keeps State.lineLru _ (fun _ _ => by simp) _ _,
      foldl_keeps State.engine _ (fun _ _ => by simp) _ _,
      foldl_keeps State.flash _ (fun _ _ => by simp) _ _,
      foldl_keeps State.portA _ (fun _ _ => by simp) _ _,
      foldl_keeps State.portB _ (fun _ _ => by simp) _ _,
      foldl_keeps State.permitRequest _ (fun _ _ => by simp) _ _,
      foldl_keeps State.options _ (fun _ _ => by simp) _ _,
      foldl_keeps State.permit _ (fun _ _ => by simp) _ _,
      foldl_keeps State.rescan _ (fun _ _ => by simp) _ _,
      foldl_keeps State.service _ (fun _ _ => by simp) _ _,
      foldl_keeps State.nextEntry _ (fun _ _ => by simp) _ _,
      foldl_keeps State.nextFree _ (fun _ _ => by simp) _ _,
      foldl_keeps State.pending _ (fun _ _ => by simp) _ _⟩
  · simp

@[simp] theorem State.enqueue_frame (s : State) (p : Port) (e : Entry) :
    (s.enqueue p e).supplies = s.supplies ∧ (s.enqueue p e).resetN = s.resetN ∧ (s.enqueue p e).fuseArray = s.fuseArray ∧
    (s.enqueue p e).fuseImage = s.fuseImage ∧ (s.enqueue p e).fuseController = s.fuseController ∧
    (s.enqueue p e).manifest = s.manifest ∧ (s.enqueue p e).images = s.images ∧ (s.enqueue p e).store = s.store ∧
    (s.enqueue p e).segMap = s.segMap ∧ (s.enqueue p e).slots = s.slots ∧ (s.enqueue p e).slotLru = s.slotLru ∧
    (s.enqueue p e).lines = s.lines ∧ (s.enqueue p e).lineLru = s.lineLru ∧ (s.enqueue p e).engine = s.engine ∧
    (s.enqueue p e).flash = s.flash ∧ (s.enqueue p e).arbiter = s.arbiter ∧
    (s.enqueue p e).permitRequest = s.permitRequest ∧ (s.enqueue p e).options = s.options ∧
    (s.enqueue p e).permit = s.permit ∧ (s.enqueue p e).rescan = s.rescan ∧ (s.enqueue p e).service = s.service ∧
    (s.enqueue p e).nextFree = s.nextFree ∧ (s.enqueue p e).pending = s.pending :=
  by simp [State.enqueue]

@[simp] theorem State.takeEntry_frame (s : State) (p : Port) (x : Byte) (b : Body) (r : Option RespStatus) :
    (s.takeEntry p x b r).supplies = s.supplies ∧ (s.takeEntry p x b r).resetN = s.resetN ∧
    (s.takeEntry p x b r).fuseArray = s.fuseArray ∧ (s.takeEntry p x b r).fuseImage = s.fuseImage ∧
    (s.takeEntry p x b r).fuseController = s.fuseController ∧ (s.takeEntry p x b r).manifest = s.manifest ∧
    (s.takeEntry p x b r).images = s.images ∧ (s.takeEntry p x b r).store = s.store ∧
    (s.takeEntry p x b r).segMap = s.segMap ∧ (s.takeEntry p x b r).slots = s.slots ∧
    (s.takeEntry p x b r).slotLru = s.slotLru ∧ (s.takeEntry p x b r).lines = s.lines ∧
    (s.takeEntry p x b r).lineLru = s.lineLru ∧ (s.takeEntry p x b r).engine = s.engine ∧
    (s.takeEntry p x b r).flash = s.flash ∧ (s.takeEntry p x b r).arbiter = s.arbiter ∧
    (s.takeEntry p x b r).permitRequest = s.permitRequest ∧ (s.takeEntry p x b r).options = s.options ∧
    (s.takeEntry p x b r).permit = s.permit ∧ (s.takeEntry p x b r).rescan = s.rescan ∧
    (s.takeEntry p x b r).service = s.service ∧ (s.takeEntry p x b r).nextFree = s.nextFree ∧
    (s.takeEntry p x b r).pending = s.pending :=
  by simp [State.takeEntry]

@[simp] theorem State.lookups_frame (p : Port) (i : Nat) (gs : List Nat) (e : Entry) (s : State) :
    (State.lookups p i gs e s).1.supplies = s.supplies ∧ (State.lookups p i gs e s).1.resetN = s.resetN ∧
    (State.lookups p i gs e s).1.fuseArray = s.fuseArray ∧ (State.lookups p i gs e s).1.fuseImage = s.fuseImage ∧
    (State.lookups p i gs e s).1.fuseController = s.fuseController ∧ (State.lookups p i gs e s).1.manifest = s.manifest ∧
    (State.lookups p i gs e s).1.images = s.images ∧ (State.lookups p i gs e s).1.store = s.store ∧
    (State.lookups p i gs e s).1.segMap = s.segMap ∧ (State.lookups p i gs e s).1.slots = s.slots ∧
    (State.lookups p i gs e s).1.slotLru = s.slotLru ∧ (State.lookups p i gs e s).1.engine = s.engine ∧
    (State.lookups p i gs e s).1.flash = s.flash ∧ (State.lookups p i gs e s).1.arbiter = s.arbiter ∧
    (State.lookups p i gs e s).1.portA = s.portA ∧ (State.lookups p i gs e s).1.portB = s.portB ∧
    (State.lookups p i gs e s).1.permitRequest = s.permitRequest ∧ (State.lookups p i gs e s).1.options = s.options ∧
    (State.lookups p i gs e s).1.permit = s.permit ∧ (State.lookups p i gs e s).1.rescan = s.rescan ∧
    (State.lookups p i gs e s).1.service = s.service ∧ (State.lookups p i gs e s).1.nextEntry = s.nextEntry ∧
    (State.lookups p i gs e s).1.nextFree = s.nextFree ∧ (State.lookups p i gs e s).1.pending = s.pending := by
  induction gs generalizing e s with
  | nil => simp [State.lookups]
  | cons g gs ih =>
    unfold State.lookups
    split
    · simp
    · split
      · simp [ih]
      · split <;> simp [ih]

@[simp] theorem State.takeRead_frame (s : State) (p : Port) (x : Byte) (a n : Nat) (m : Bool) :
    (s.takeRead p x a n m).supplies = s.supplies ∧ (s.takeRead p x a n m).resetN = s.resetN ∧
    (s.takeRead p x a n m).fuseArray = s.fuseArray ∧ (s.takeRead p x a n m).fuseImage = s.fuseImage ∧
    (s.takeRead p x a n m).fuseController = s.fuseController ∧ (s.takeRead p x a n m).manifest = s.manifest ∧
    (s.takeRead p x a n m).images = s.images ∧ (s.takeRead p x a n m).store = s.store ∧
    (s.takeRead p x a n m).segMap = s.segMap ∧ (s.takeRead p x a n m).slots = s.slots ∧
    (s.takeRead p x a n m).slotLru = s.slotLru ∧ (s.takeRead p x a n m).engine = s.engine ∧
    (s.takeRead p x a n m).flash = s.flash ∧ (s.takeRead p x a n m).permitRequest = s.permitRequest ∧
    (s.takeRead p x a n m).options = s.options ∧ (s.takeRead p x a n m).permit = s.permit ∧
    (s.takeRead p x a n m).rescan = s.rescan ∧ (s.takeRead p x a n m).service = s.service ∧
    (s.takeRead p x a n m).nextFree = s.nextFree ∧ (s.takeRead p x a n m).pending = s.pending :=
  by
  unfold State.takeRead; dsimp only
  split
  · simp
  · simp
  · split
    · simp
    · split <;> simp

@[simp] theorem State.collect_frame (s : State) (p : Port) (f : SpiFrame) :
    (s.collect p f).supplies = s.supplies ∧ (s.collect p f).resetN = s.resetN ∧ (s.collect p f).fuseArray = s.fuseArray ∧
    (s.collect p f).fuseImage = s.fuseImage ∧ (s.collect p f).fuseController = s.fuseController ∧
    (s.collect p f).manifest = s.manifest ∧ (s.collect p f).images = s.images ∧ (s.collect p f).store = s.store ∧
    (s.collect p f).segMap = s.segMap ∧ (s.collect p f).slots = s.slots ∧ (s.collect p f).slotLru = s.slotLru ∧
    (s.collect p f).engine = s.engine ∧ (s.collect p f).flash = s.flash ∧ (s.collect p f).arbiter = s.arbiter ∧
    (s.collect p f).permitRequest = s.permitRequest ∧ (s.collect p f).options = s.options ∧
    (s.collect p f).permit = s.permit ∧ (s.collect p f).rescan = s.rescan ∧ (s.collect p f).service = s.service ∧
    (s.collect p f).nextEntry = s.nextEntry ∧ (s.collect p f).nextFree = s.nextFree ∧ (s.collect p f).pending = s.pending :=
  by unfold State.collect; split <;> (try split) <;> (try split) <;> simp

@[simp] theorem State.rebootPort_frame (s : State) (p : Port) :
    (s.rebootPort p).supplies = s.supplies ∧ (s.rebootPort p).resetN = s.resetN ∧ (s.rebootPort p).fuseArray = s.fuseArray ∧
    (s.rebootPort p).fuseImage = s.fuseImage ∧ (s.rebootPort p).fuseController = s.fuseController ∧
    (s.rebootPort p).manifest = s.manifest ∧ (s.rebootPort p).images = s.images ∧ (s.rebootPort p).store = s.store ∧
    (s.rebootPort p).segMap = s.segMap ∧ (s.rebootPort p).slots = s.slots ∧ (s.rebootPort p).slotLru = s.slotLru ∧
    (s.rebootPort p).engine = s.engine ∧ (s.rebootPort p).flash = s.flash ∧ (s.rebootPort p).options = s.options ∧
    (s.rebootPort p).rescan = s.rescan ∧ (s.rebootPort p).nextEntry = s.nextEntry ∧ (s.rebootPort p).nextFree = s.nextFree ∧
    (s.rebootPort p).pending = s.pending :=
  by cases p <;> simp [State.rebootPort]

/-- The end of a frame keeps `P` when every change of the port, the command's effect and the taking of a held expiry keep it. -/
theorem State.endFrame_induct (P : State → Prop) (s : State) (p : Port) (sends : SpiFrame → State → Bytes)
    (effect : SpiFrame → State → State) (h : P s) (hport : ∀ t f, P t → P (t.modPort p f))
    (heffect : ∀ f t, P t → P (effect f t)) (hexpiry : ∀ t f, P t → P (t.takeHeldExpiry p f)) :
    P (s.endFrame p sends effect) := by
  have h1 : P (if (s.port p).frame.isSome then s else s.openFrame p) := by
    split
    · exact h
    · unfold State.openFrame
      exact hport _ _ h
  unfold State.endFrame
  dsimp only
  split
  · exact h1
  · split
    · exact hexpiry _ _ (heffect _ _ (hport _ _ h1))
    · exact hport _ _ h1

/-- A queued frame is dropped with OVERRUN on a full queue, and taken elsewhere (R128). -/
theorem State.takeQueued_cases (s : State) (p : Port) (take : State → State) :
    (4 ≤ (s.port p).queue.length ∧ s.takeQueued p take = s.stick p .overrun) ∨
    ((s.port p).queue.length < 4 ∧ s.takeQueued p take = take s) := by
  unfold State.takeQueued
  split
  · exact .inl ⟨‹_›, rfl⟩
  · exact .inr ⟨by omega, rfl⟩

/-! ## Service port -/

/-- A read transaction sends one byte for each one asked for (R191). -/
@[simp] theorem State.sendBytes_length (s : State) (n : Nat) (v : ServicePort) : (s.sendBytes n v).1.length = n := by
  induction n generalizing v with
  | zero => rfl
  | succ n ih => simp [State.sendBytes, ih]

/-- A read transaction changes nothing of the port but its pointer and its capture (R191, R192). -/
theorem State.sendBytes_port (s : State) (n : Nat) (v : ServicePort) :
    (s.sendBytes n v).2 = { v with pointer := (s.sendBytes n v).2.pointer, capture := (s.sendBytes n v).2.capture } := by
  induction n generalizing v with
  | zero => rfl
  | succ n ih => rw [State.sendBytes]; dsimp only; rw [ih]; rfl

@[simp] theorem State.modService_frame (s : State) (f : ServicePort → ServicePort) :
    (s.modService f).supplies = s.supplies ∧ (s.modService f).resetN = s.resetN ∧ (s.modService f).fuseArray = s.fuseArray ∧
    (s.modService f).fuseImage = s.fuseImage ∧ (s.modService f).fuseController = s.fuseController ∧
    (s.modService f).manifest = s.manifest ∧ (s.modService f).images = s.images ∧ (s.modService f).store = s.store ∧
    (s.modService f).segMap = s.segMap ∧ (s.modService f).slots = s.slots ∧ (s.modService f).slotLru = s.slotLru ∧
    (s.modService f).lines = s.lines ∧ (s.modService f).lineLru = s.lineLru ∧ (s.modService f).engine = s.engine ∧
    (s.modService f).flash = s.flash ∧ (s.modService f).arbiter = s.arbiter ∧ (s.modService f).portA = s.portA ∧
    (s.modService f).portB = s.portB ∧ (s.modService f).permitRequest = s.permitRequest ∧
    (s.modService f).options = s.options ∧ (s.modService f).permit = s.permit ∧ (s.modService f).rescan = s.rescan ∧
    (s.modService f).nextEntry = s.nextEntry ∧ (s.modService f).nextFree = s.nextFree ∧
    (s.modService f).pending = s.pending :=
  ⟨rfl, rfl, rfl, rfl, rfl, rfl, rfl, rfl, rfl, rfl, rfl, rfl, rfl, rfl, rfl, rfl, rfl, rfl, rfl, rfl, rfl, rfl, rfl, rfl, rfl⟩

@[simp] theorem State.modService_service (s : State) (f : ServicePort → ServicePort) : (s.modService f).service = f s.service := rfl

@[simp] theorem State.sendMore_frame (s : State) (n : Nat) :
    (s.sendMore n).supplies = s.supplies ∧ (s.sendMore n).resetN = s.resetN ∧ (s.sendMore n).fuseArray = s.fuseArray ∧
    (s.sendMore n).fuseImage = s.fuseImage ∧ (s.sendMore n).fuseController = s.fuseController ∧
    (s.sendMore n).manifest = s.manifest ∧ (s.sendMore n).images = s.images ∧ (s.sendMore n).store = s.store ∧
    (s.sendMore n).segMap = s.segMap ∧ (s.sendMore n).slots = s.slots ∧ (s.sendMore n).slotLru = s.slotLru ∧
    (s.sendMore n).lines = s.lines ∧ (s.sendMore n).lineLru = s.lineLru ∧ (s.sendMore n).engine = s.engine ∧
    (s.sendMore n).flash = s.flash ∧ (s.sendMore n).arbiter = s.arbiter ∧ (s.sendMore n).portA = s.portA ∧
    (s.sendMore n).portB = s.portB ∧ (s.sendMore n).permitRequest = s.permitRequest ∧ (s.sendMore n).options = s.options ∧
    (s.sendMore n).permit = s.permit ∧ (s.sendMore n).rescan = s.rescan ∧ (s.sendMore n).nextEntry = s.nextEntry ∧
    (s.sendMore n).nextFree = s.nextFree ∧ (s.sendMore n).pending = s.pending :=
  by simp [State.sendMore]

/-- A data byte either is not one of this row, and leaves the state, or has its effect, the pointer's step and its
acknowledgement. -/
theorem State.dataByte_cases (s : State) (p : BitVec 7) (effect : State → State) :
    (¬ (s.live = true ∧ s.service.transaction = .writing ∧ s.service.pointer = p) ∧ s.dataByte p effect = s) ∨
    ((s.live = true ∧ s.service.transaction = .writing ∧ s.service.pointer = p) ∧
      s.dataByte p effect = (effect s).modService fun v => { v.step with acked := true }) := by
  by_cases h : s.live = true ∧ s.service.transaction = .writing ∧ s.service.pointer = p
  · refine .inr ⟨h, ?_⟩
    obtain ⟨a, b, c⟩ := h
    simp [State.dataByte, State.when, a, b, c]
  · refine .inl ⟨h, ?_⟩
    have : (s.live && s.service.transaction == .writing && s.service.pointer == p) = false := by
      simp only [← Bool.not_eq_true, Bool.and_eq_true, beq_iff_eq]
      exact fun g => h ⟨g.1.1, g.1.2, g.2⟩
    simp [State.dataByte, State.when, this]

@[simp] theorem State.setResult_frame (s : State) (x : ResultStatus) (r : RefusalReason) :
    (s.setResult x r).supplies = s.supplies ∧ (s.setResult x r).resetN = s.resetN ∧
    (s.setResult x r).fuseArray = s.fuseArray ∧ (s.setResult x r).fuseImage = s.fuseImage ∧
    (s.setResult x r).fuseController = s.fuseController ∧ (s.setResult x r).manifest = s.manifest ∧
    (s.setResult x r).images = s.images ∧ (s.setResult x r).store = s.store ∧ (s.setResult x r).segMap = s.segMap ∧
    (s.setResult x r).slots = s.slots ∧ (s.setResult x r).slotLru = s.slotLru ∧ (s.setResult x r).lines = s.lines ∧
    (s.setResult x r).lineLru = s.lineLru ∧ (s.setResult x r).engine = s.engine ∧ (s.setResult x r).flash = s.flash ∧
    (s.setResult x r).arbiter = s.arbiter ∧ (s.setResult x r).portA = s.portA ∧ (s.setResult x r).portB = s.portB ∧
    (s.setResult x r).permitRequest = s.permitRequest ∧ (s.setResult x r).options = s.options ∧
    (s.setResult x r).permit = s.permit ∧ (s.setResult x r).rescan = s.rescan ∧ (s.setResult x r).nextEntry = s.nextEntry ∧
    (s.setResult x r).nextFree = s.nextFree ∧ (s.setResult x r).pending = s.pending :=
  ⟨rfl, rfl, rfl, rfl, rfl, rfl, rfl, rfl, rfl, rfl, rfl, rfl, rfl, rfl, rfl, rfl, rfl, rfl, rfl, rfl, rfl, rfl, rfl, rfl, rfl⟩

@[simp] theorem State.refuse_frame (s : State) (r : RefusalReason) :
    (s.refuse r).supplies = s.supplies ∧ (s.refuse r).resetN = s.resetN ∧ (s.refuse r).fuseArray = s.fuseArray ∧
    (s.refuse r).fuseImage = s.fuseImage ∧ (s.refuse r).fuseController = s.fuseController ∧
    (s.refuse r).manifest = s.manifest ∧ (s.refuse r).images = s.images ∧ (s.refuse r).store = s.store ∧
    (s.refuse r).segMap = s.segMap ∧ (s.refuse r).slots = s.slots ∧ (s.refuse r).slotLru = s.slotLru ∧
    (s.refuse r).lines = s.lines ∧ (s.refuse r).lineLru = s.lineLru ∧ (s.refuse r).engine = s.engine ∧
    (s.refuse r).flash = s.flash ∧ (s.refuse r).arbiter = s.arbiter ∧ (s.refuse r).portA = s.portA ∧
    (s.refuse r).portB = s.portB ∧ (s.refuse r).permitRequest = s.permitRequest ∧ (s.refuse r).options = s.options ∧
    (s.refuse r).permit = s.permit ∧ (s.refuse r).rescan = s.rescan ∧ (s.refuse r).nextEntry = s.nextEntry ∧
    (s.refuse r).nextFree = s.nextFree ∧ (s.refuse r).pending = s.pending :=
  ⟨rfl, rfl, rfl, rfl, rfl, rfl, rfl, rfl, rfl, rfl, rfl, rfl, rfl, rfl, rfl, rfl, rfl, rfl, rfl, rfl, rfl, rfl, rfl, rfl, rfl⟩

@[simp] theorem State.endCommand_frame (s : State) (x : ResultStatus) :
    (s.endCommand x).supplies = s.supplies ∧ (s.endCommand x).resetN = s.resetN ∧ (s.endCommand x).fuseArray = s.fuseArray ∧
    (s.endCommand x).fuseImage = s.fuseImage ∧ (s.endCommand x).manifest = s.manifest ∧ (s.endCommand x).images = s.images ∧
    (s.endCommand x).store = s.store ∧ (s.endCommand x).segMap = s.segMap ∧ (s.endCommand x).slots = s.slots ∧
    (s.endCommand x).slotLru = s.slotLru ∧ (s.endCommand x).lines = s.lines ∧ (s.endCommand x).lineLru = s.lineLru ∧
    (s.endCommand x).engine = s.engine ∧ (s.endCommand x).flash = s.flash ∧ (s.endCommand x).arbiter = s.arbiter ∧
    (s.endCommand x).portA = s.portA ∧ (s.endCommand x).portB = s.portB ∧ (s.endCommand x).permitRequest = s.permitRequest ∧
    (s.endCommand x).options = s.options ∧ (s.endCommand x).permit = s.permit ∧ (s.endCommand x).rescan = s.rescan ∧
    (s.endCommand x).nextEntry = s.nextEntry ∧ (s.endCommand x).nextFree = s.nextFree ∧
    (s.endCommand x).pending = s.pending :=
  ⟨rfl, rfl, rfl, rfl, rfl, rfl, rfl, rfl, rfl, rfl, rfl, rfl, rfl, rfl, rfl, rfl, rfl, rfl, rfl, rfl, rfl, rfl, rfl, rfl⟩

@[simp] theorem State.startBurn_frame (s : State) (c : FuseController) :
    (s.startBurn c).supplies = s.supplies ∧ (s.startBurn c).resetN = s.resetN ∧ (s.startBurn c).fuseArray = s.fuseArray ∧
    (s.startBurn c).fuseImage = s.fuseImage ∧ (s.startBurn c).manifest = s.manifest ∧ (s.startBurn c).images = s.images ∧
    (s.startBurn c).store = s.store ∧ (s.startBurn c).segMap = s.segMap ∧ (s.startBurn c).slots = s.slots ∧
    (s.startBurn c).slotLru = s.slotLru ∧ (s.startBurn c).lines = s.lines ∧ (s.startBurn c).lineLru = s.lineLru ∧
    (s.startBurn c).engine = s.engine ∧ (s.startBurn c).flash = s.flash ∧ (s.startBurn c).arbiter = s.arbiter ∧
    (s.startBurn c).portA = s.portA ∧ (s.startBurn c).portB = s.portB ∧ (s.startBurn c).permitRequest = s.permitRequest ∧
    (s.startBurn c).options = s.options ∧ (s.startBurn c).permit = s.permit ∧ (s.startBurn c).rescan = s.rescan ∧
    (s.startBurn c).nextEntry = s.nextEntry ∧ (s.startBurn c).nextFree = s.nextFree ∧ (s.startBurn c).pending = s.pending :=
  ⟨rfl, rfl, rfl, rfl, rfl, rfl, rfl, rfl, rfl, rfl, rfl, rfl, rfl, rfl, rfl, rfl, rfl, rfl, rfl, rfl, rfl, rfl, rfl, rfl⟩

@[simp] theorem State.storeField_frame (s : State) (p : BitVec 7) (b : Byte) :
    (s.storeField p b).supplies = s.supplies ∧ (s.storeField p b).resetN = s.resetN ∧
    (s.storeField p b).fuseArray = s.fuseArray ∧ (s.storeField p b).fuseImage = s.fuseImage ∧
    (s.storeField p b).fuseController = s.fuseController ∧ (s.storeField p b).manifest = s.manifest ∧
    (s.storeField p b).images = s.images ∧ (s.storeField p b).store = s.store ∧ (s.storeField p b).segMap = s.segMap ∧
    (s.storeField p b).slots = s.slots ∧ (s.storeField p b).slotLru = s.slotLru ∧ (s.storeField p b).lines = s.lines ∧
    (s.storeField p b).lineLru = s.lineLru ∧ (s.storeField p b).engine = s.engine ∧ (s.storeField p b).flash = s.flash ∧
    (s.storeField p b).arbiter = s.arbiter ∧ (s.storeField p b).portA = s.portA ∧ (s.storeField p b).portB = s.portB ∧
    (s.storeField p b).permitRequest = s.permitRequest ∧ (s.storeField p b).permit = s.permit ∧
    (s.storeField p b).rescan = s.rescan ∧ (s.storeField p b).nextEntry = s.nextEntry ∧
    (s.storeField p b).nextFree = s.nextFree ∧ (s.storeField p b).pending = s.pending :=
  by unfold State.storeField; split <;> (try split) <;> simp

@[simp] theorem State.judgeFloorAdvance_frame (s : State) :
    (s.judgeFloorAdvance).supplies = s.supplies ∧ (s.judgeFloorAdvance).resetN = s.resetN ∧
    (s.judgeFloorAdvance).fuseArray = s.fuseArray ∧ (s.judgeFloorAdvance).fuseImage = s.fuseImage ∧
    (s.judgeFloorAdvance).manifest = s.manifest ∧ (s.judgeFloorAdvance).images = s.images ∧
    (s.judgeFloorAdvance).store = s.store ∧ (s.judgeFloorAdvance).segMap = s.segMap ∧
    (s.judgeFloorAdvance).slots = s.slots ∧ (s.judgeFloorAdvance).slotLru = s.slotLru ∧
    (s.judgeFloorAdvance).lines = s.lines ∧ (s.judgeFloorAdvance).lineLru = s.lineLru ∧
    (s.judgeFloorAdvance).engine = s.engine ∧ (s.judgeFloorAdvance).flash = s.flash ∧
    (s.judgeFloorAdvance).arbiter = s.arbiter ∧ (s.judgeFloorAdvance).portA = s.portA ∧
    (s.judgeFloorAdvance).portB = s.portB ∧ (s.judgeFloorAdvance).permitRequest = s.permitRequest ∧
    (s.judgeFloorAdvance).options = s.options ∧ (s.judgeFloorAdvance).permit = s.permit ∧
    (s.judgeFloorAdvance).rescan = s.rescan ∧ (s.judgeFloorAdvance).nextEntry = s.nextEntry ∧
    (s.judgeFloorAdvance).nextFree = s.nextFree ∧ (s.judgeFloorAdvance).pending = s.pending :=
  by
  unfold State.judgeFloorAdvance
  split
  · split
    · split
      · split <;> simp
      · simp
    · simp
  · simp

@[simp] theorem State.judgeRevoke_frame (s : State) (n : Nat) :
    (s.judgeRevoke n).supplies = s.supplies ∧ (s.judgeRevoke n).resetN = s.resetN ∧
    (s.judgeRevoke n).fuseArray = s.fuseArray ∧ (s.judgeRevoke n).fuseImage = s.fuseImage ∧
    (s.judgeRevoke n).manifest = s.manifest ∧ (s.judgeRevoke n).images = s.images ∧ (s.judgeRevoke n).store = s.store ∧
    (s.judgeRevoke n).segMap = s.segMap ∧ (s.judgeRevoke n).slots = s.slots ∧ (s.judgeRevoke n).slotLru = s.slotLru ∧
    (s.judgeRevoke n).lines = s.lines ∧ (s.judgeRevoke n).lineLru = s.lineLru ∧ (s.judgeRevoke n).engine = s.engine ∧
    (s.judgeRevoke n).flash = s.flash ∧ (s.judgeRevoke n).arbiter = s.arbiter ∧ (s.judgeRevoke n).portA = s.portA ∧
    (s.judgeRevoke n).portB = s.portB ∧ (s.judgeRevoke n).permitRequest = s.permitRequest ∧
    (s.judgeRevoke n).options = s.options ∧ (s.judgeRevoke n).permit = s.permit ∧ (s.judgeRevoke n).rescan = s.rescan ∧
    (s.judgeRevoke n).nextEntry = s.nextEntry ∧ (s.judgeRevoke n).nextFree = s.nextFree ∧
    (s.judgeRevoke n).pending = s.pending :=
  by
  unfold State.judgeRevoke
  split
  · simp
  · split
    · split
      · simp
      · split <;> simp
    · simp

@[simp] theorem State.settleFloor_frame (s : State) (k : Fin 32) (b : Bool) :
    (s.settleFloor k b).supplies = s.supplies ∧ (s.settleFloor k b).resetN = s.resetN ∧
    (s.settleFloor k b).fuseController = s.fuseController ∧ (s.settleFloor k b).manifest = s.manifest ∧
    (s.settleFloor k b).images = s.images ∧ (s.settleFloor k b).store = s.store ∧ (s.settleFloor k b).segMap = s.segMap ∧
    (s.settleFloor k b).slots = s.slots ∧ (s.settleFloor k b).slotLru = s.slotLru ∧ (s.settleFloor k b).lines = s.lines ∧
    (s.settleFloor k b).lineLru = s.lineLru ∧ (s.settleFloor k b).engine = s.engine ∧ (s.settleFloor k b).flash = s.flash ∧
    (s.settleFloor k b).arbiter = s.arbiter ∧ (s.settleFloor k b).portA = s.portA ∧ (s.settleFloor k b).portB = s.portB ∧
    (s.settleFloor k b).permitRequest = s.permitRequest ∧ (s.settleFloor k b).options = s.options ∧
    (s.settleFloor k b).permit = s.permit ∧ (s.settleFloor k b).rescan = s.rescan ∧
    (s.settleFloor k b).service = s.service ∧ (s.settleFloor k b).nextEntry = s.nextEntry ∧
    (s.settleFloor k b).pending = s.pending :=
  by cases b <;> simp [State.settleFloor]

@[simp] theorem State.settleRevoke_frame (s : State) (k : Fin 4) (b : Bool) :
    (s.settleRevoke k b).supplies = s.supplies ∧ (s.settleRevoke k b).resetN = s.resetN ∧
    (s.settleRevoke k b).fuseController = s.fuseController ∧ (s.settleRevoke k b).manifest = s.manifest ∧
    (s.settleRevoke k b).images = s.images ∧ (s.settleRevoke k b).store = s.store ∧ (s.settleRevoke k b).segMap = s.segMap ∧
    (s.settleRevoke k b).slots = s.slots ∧ (s.settleRevoke k b).slotLru = s.slotLru ∧ (s.settleRevoke k b).lines = s.lines ∧
    (s.settleRevoke k b).lineLru = s.lineLru ∧ (s.settleRevoke k b).engine = s.engine ∧
    (s.settleRevoke k b).flash = s.flash ∧ (s.settleRevoke k b).arbiter = s.arbiter ∧ (s.settleRevoke k b).portA = s.portA ∧
    (s.settleRevoke k b).portB = s.portB ∧ (s.settleRevoke k b).permitRequest = s.permitRequest ∧
    (s.settleRevoke k b).options = s.options ∧ (s.settleRevoke k b).permit = s.permit ∧
    (s.settleRevoke k b).rescan = s.rescan ∧ (s.settleRevoke k b).service = s.service ∧
    (s.settleRevoke k b).nextEntry = s.nextEntry ∧ (s.settleRevoke k b).pending = s.pending :=
  by cases b <;> simp [State.settleRevoke]

@[simp] theorem State.afterFloorBurn_frame (s : State) (n : Nat) (b : Bool) :
    (s.afterFloorBurn n b).supplies = s.supplies ∧ (s.afterFloorBurn n b).resetN = s.resetN ∧
    (s.afterFloorBurn n b).fuseArray = s.fuseArray ∧ (s.afterFloorBurn n b).fuseImage = s.fuseImage ∧
    (s.afterFloorBurn n b).manifest = s.manifest ∧ (s.afterFloorBurn n b).images = s.images ∧
    (s.afterFloorBurn n b).store = s.store ∧ (s.afterFloorBurn n b).segMap = s.segMap ∧
    (s.afterFloorBurn n b).slots = s.slots ∧ (s.afterFloorBurn n b).slotLru = s.slotLru ∧
    (s.afterFloorBurn n b).lines = s.lines ∧ (s.afterFloorBurn n b).lineLru = s.lineLru ∧
    (s.afterFloorBurn n b).engine = s.engine ∧ (s.afterFloorBurn n b).flash = s.flash ∧
    (s.afterFloorBurn n b).arbiter = s.arbiter ∧ (s.afterFloorBurn n b).portA = s.portA ∧
    (s.afterFloorBurn n b).portB = s.portB ∧ (s.afterFloorBurn n b).permitRequest = s.permitRequest ∧
    (s.afterFloorBurn n b).options = s.options ∧ (s.afterFloorBurn n b).permit = s.permit ∧
    (s.afterFloorBurn n b).rescan = s.rescan ∧ (s.afterFloorBurn n b).nextEntry = s.nextEntry ∧
    (s.afterFloorBurn n b).nextFree = s.nextFree ∧ (s.afterFloorBurn n b).pending = s.pending :=
  by
  unfold State.afterFloorBurn
  split
  · simp
  · split
    · simp
    · split <;> simp

/-- A held restart takes effect, or nothing happens (R201). -/
theorem State.takePendingRestart_cases (s : State) :
    (s.service.pendingRestart = true ∧ s.fuseController = .idle ∧ s.takePendingRestart = s.serviceRestart) ∨
    s.takePendingRestart = s := by
  unfold State.takePendingRestart
  split
  · rename_i h
    simp only [Bool.and_eq_true, beq_iff_eq] at h
    exact .inl ⟨h.1, h.2, rfl⟩
  · exact .inr rfl

/-! ## The walk -/

@[simp] theorem State.modManifest_frame (s : State) (f : ManifestUnit → ManifestUnit) :
    (s.modManifest f).supplies = s.supplies ∧ (s.modManifest f).resetN = s.resetN ∧
    (s.modManifest f).fuseArray = s.fuseArray ∧ (s.modManifest f).fuseImage = s.fuseImage ∧
    (s.modManifest f).fuseController = s.fuseController ∧ (s.modManifest f).images = s.images ∧
    (s.modManifest f).store = s.store ∧ (s.modManifest f).segMap = s.segMap ∧ (s.modManifest f).slots = s.slots ∧
    (s.modManifest f).slotLru = s.slotLru ∧ (s.modManifest f).lines = s.lines ∧ (s.modManifest f).lineLru = s.lineLru ∧
    (s.modManifest f).engine = s.engine ∧ (s.modManifest f).flash = s.flash ∧ (s.modManifest f).arbiter = s.arbiter ∧
    (s.modManifest f).portA = s.portA ∧ (s.modManifest f).portB = s.portB ∧
    (s.modManifest f).permitRequest = s.permitRequest ∧ (s.modManifest f).options = s.options ∧
    (s.modManifest f).permit = s.permit ∧ (s.modManifest f).rescan = s.rescan ∧ (s.modManifest f).service = s.service ∧
    (s.modManifest f).nextEntry = s.nextEntry ∧ (s.modManifest f).nextFree = s.nextFree ∧
    (s.modManifest f).pending = s.pending :=
  ⟨rfl, rfl, rfl, rfl, rfl, rfl, rfl, rfl, rfl, rfl, rfl, rfl, rfl, rfl, rfl, rfl, rfl, rfl, rfl, rfl, rfl, rfl, rfl, rfl, rfl⟩

@[simp] theorem State.modManifest_manifest (s : State) (f : ManifestUnit → ManifestUnit) :
    (s.modManifest f).manifest = f s.manifest := rfl

@[simp] theorem State.enterLocked_frame (s : State) (c : LockedCause) :
    (s.enterLocked c).supplies = s.supplies ∧ (s.enterLocked c).resetN = s.resetN ∧
    (s.enterLocked c).fuseArray = s.fuseArray ∧ (s.enterLocked c).fuseImage = s.fuseImage ∧
    (s.enterLocked c).fuseController = s.fuseController ∧ (s.enterLocked c).images = s.images ∧
    (s.enterLocked c).store = s.store ∧ (s.enterLocked c).segMap = s.segMap ∧ (s.enterLocked c).slots = s.slots ∧
    (s.enterLocked c).slotLru = s.slotLru ∧ (s.enterLocked c).lines = s.lines ∧ (s.enterLocked c).lineLru = s.lineLru ∧
    (s.enterLocked c).engine = s.engine ∧ (s.enterLocked c).flash = s.flash ∧ (s.enterLocked c).arbiter = s.arbiter ∧
    (s.enterLocked c).portA = s.portA ∧ (s.enterLocked c).portB = s.portB ∧
    (s.enterLocked c).permitRequest = s.permitRequest ∧ (s.enterLocked c).options = s.options ∧
    (s.enterLocked c).permit = s.permit ∧ (s.enterLocked c).rescan = s.rescan ∧ (s.enterLocked c).service = s.service ∧
    (s.enterLocked c).nextEntry = s.nextEntry ∧ (s.enterLocked c).nextFree = s.nextFree ∧
    (s.enterLocked c).pending = s.pending :=
  ⟨rfl, rfl, rfl, rfl, rfl, rfl, rfl, rfl, rfl, rfl, rfl, rfl, rfl, rfl, rfl, rfl, rfl, rfl, rfl, rfl, rfl, rfl, rfl, rfl, rfl⟩

@[simp] theorem State.beginCandidate_frame (s : State) (f : FuseImage) (x : Source) :
    (s.beginCandidate f x).supplies = s.supplies ∧ (s.beginCandidate f x).resetN = s.resetN ∧
    (s.beginCandidate f x).fuseArray = s.fuseArray ∧ (s.beginCandidate f x).fuseImage = s.fuseImage ∧
    (s.beginCandidate f x).fuseController = s.fuseController ∧ (s.beginCandidate f x).images = s.images ∧
    (s.beginCandidate f x).store = s.store ∧ (s.beginCandidate f x).segMap = s.segMap ∧
    (s.beginCandidate f x).slots = s.slots ∧ (s.beginCandidate f x).slotLru = s.slotLru ∧
    (s.beginCandidate f x).lines = s.lines ∧ (s.beginCandidate f x).lineLru = s.lineLru ∧
    (s.beginCandidate f x).engine = s.engine ∧ (s.beginCandidate f x).flash = s.flash ∧
    (s.beginCandidate f x).arbiter = s.arbiter ∧ (s.beginCandidate f x).portA = s.portA ∧
    (s.beginCandidate f x).portB = s.portB ∧ (s.beginCandidate f x).permitRequest = s.permitRequest ∧
    (s.beginCandidate f x).options = s.options ∧ (s.beginCandidate f x).permit = s.permit ∧
    (s.beginCandidate f x).rescan = s.rescan ∧ (s.beginCandidate f x).service = s.service ∧
    (s.beginCandidate f x).nextEntry = s.nextEntry ∧ (s.beginCandidate f x).nextFree = s.nextFree ∧
    (s.beginCandidate f x).pending = s.pending :=
  ⟨rfl, rfl, rfl, rfl, rfl, rfl, rfl, rfl, rfl, rfl, rfl, rfl, rfl, rfl, rfl, rfl, rfl, rfl, rfl, rfl, rfl, rfl, rfl, rfl, rfl⟩

@[simp] theorem State.nextCandidate_frame (s : State) (f : FuseImage) (b : Bool) :
    (s.nextCandidate f b).supplies = s.supplies ∧ (s.nextCandidate f b).resetN = s.resetN ∧
    (s.nextCandidate f b).fuseArray = s.fuseArray ∧ (s.nextCandidate f b).fuseImage = s.fuseImage ∧
    (s.nextCandidate f b).fuseController = s.fuseController ∧ (s.nextCandidate f b).images = s.images ∧
    (s.nextCandidate f b).store = s.store ∧ (s.nextCandidate f b).segMap = s.segMap ∧
    (s.nextCandidate f b).slots = s.slots ∧ (s.nextCandidate f b).slotLru = s.slotLru ∧
    (s.nextCandidate f b).lines = s.lines ∧ (s.nextCandidate f b).lineLru = s.lineLru ∧
    (s.nextCandidate f b).engine = s.engine ∧ (s.nextCandidate f b).flash = s.flash ∧
    (s.nextCandidate f b).arbiter = s.arbiter ∧ (s.nextCandidate f b).portA = s.portA ∧
    (s.nextCandidate f b).portB = s.portB ∧ (s.nextCandidate f b).permitRequest = s.permitRequest ∧
    (s.nextCandidate f b).options = s.options ∧ (s.nextCandidate f b).permit = s.permit ∧
    (s.nextCandidate f b).rescan = s.rescan ∧ (s.nextCandidate f b).service = s.service ∧
    (s.nextCandidate f b).nextEntry = s.nextEntry ∧ (s.nextCandidate f b).nextFree = s.nextFree ∧
    (s.nextCandidate f b).pending = s.pending :=
  by unfold State.nextCandidate; split <;> (try split) <;> simp

@[simp] theorem State.endCandidate_frame (s : State) (f : FuseImage) (x : Source) (e : WalkError) :
    (s.endCandidate f x e).supplies = s.supplies ∧ (s.endCandidate f x e).resetN = s.resetN ∧
    (s.endCandidate f x e).fuseArray = s.fuseArray ∧ (s.endCandidate f x e).fuseImage = s.fuseImage ∧
    (s.endCandidate f x e).fuseController = s.fuseController ∧ (s.endCandidate f x e).slots = s.slots ∧
    (s.endCandidate f x e).slotLru = s.slotLru ∧ (s.endCandidate f x e).lines = s.lines ∧
    (s.endCandidate f x e).lineLru = s.lineLru ∧ (s.endCandidate f x e).engine = s.engine ∧
    (s.endCandidate f x e).flash = s.flash ∧ (s.endCandidate f x e).arbiter = s.arbiter ∧
    (s.endCandidate f x e).portA = s.portA ∧ (s.endCandidate f x e).portB = s.portB ∧
    (s.endCandidate f x e).permitRequest = s.permitRequest ∧ (s.endCandidate f x e).options = s.options ∧
    (s.endCandidate f x e).permit = s.permit ∧ (s.endCandidate f x e).rescan = s.rescan ∧
    (s.endCandidate f x e).service = s.service ∧ (s.endCandidate f x e).nextEntry = s.nextEntry ∧
    (s.endCandidate f x e).nextFree = s.nextFree ∧ (s.endCandidate f x e).pending = s.pending :=
  by simp [State.endCandidate]

@[simp] theorem State.completeWalk_frame (s : State) (x : Source) (b : Bytes) :
    (s.completeWalk x b).supplies = s.supplies ∧ (s.completeWalk x b).resetN = s.resetN ∧
    (s.completeWalk x b).fuseArray = s.fuseArray ∧ (s.completeWalk x b).fuseImage = s.fuseImage ∧
    (s.completeWalk x b).fuseController = s.fuseController ∧ (s.completeWalk x b).store = s.store ∧
    (s.completeWalk x b).segMap = s.segMap ∧ (s.completeWalk x b).slots = s.slots ∧
    (s.completeWalk x b).slotLru = s.slotLru ∧ (s.completeWalk x b).lines = s.lines ∧
    (s.completeWalk x b).lineLru = s.lineLru ∧ (s.completeWalk x b).engine = s.engine ∧
    (s.completeWalk x b).flash = s.flash ∧ (s.completeWalk x b).permitRequest = s.permitRequest ∧
    (s.completeWalk x b).nextEntry = s.nextEntry ∧ (s.completeWalk x b).nextFree = s.nextFree ∧
    (s.completeWalk x b).pending = s.pending :=
  by simp [State.completeWalk]

@[simp] theorem State.appendImage_frame (s : State) (im : Image) (ds : List Digest) :
    (s.appendImage im ds).supplies = s.supplies ∧ (s.appendImage im ds).resetN = s.resetN ∧
    (s.appendImage im ds).fuseArray = s.fuseArray ∧ (s.appendImage im ds).fuseImage = s.fuseImage ∧
    (s.appendImage im ds).fuseController = s.fuseController ∧ (s.appendImage im ds).manifest = s.manifest ∧
    (s.appendImage im ds).slots = s.slots ∧ (s.appendImage im ds).slotLru = s.slotLru ∧
    (s.appendImage im ds).lines = s.lines ∧ (s.appendImage im ds).lineLru = s.lineLru ∧
    (s.appendImage im ds).engine = s.engine ∧ (s.appendImage im ds).flash = s.flash ∧
    (s.appendImage im ds).arbiter = s.arbiter ∧ (s.appendImage im ds).portA = s.portA ∧
    (s.appendImage im ds).portB = s.portB ∧ (s.appendImage im ds).permitRequest = s.permitRequest ∧
    (s.appendImage im ds).options = s.options ∧ (s.appendImage im ds).permit = s.permit ∧
    (s.appendImage im ds).rescan = s.rescan ∧ (s.appendImage im ds).service = s.service ∧
    (s.appendImage im ds).nextEntry = s.nextEntry ∧ (s.appendImage im ds).nextFree = s.nextFree ∧
    (s.appendImage im ds).pending = s.pending :=
  ⟨rfl, rfl, rfl, rfl, rfl, rfl, rfl, rfl, rfl, rfl, rfl, rfl, rfl, rfl, rfl, rfl, rfl, rfl, rfl, rfl, rfl, rfl, rfl⟩

@[simp] theorem State.readMore_frame (s : State) (f : Frame) :
    (s.readMore f).supplies = s.supplies ∧ (s.readMore f).resetN = s.resetN ∧ (s.readMore f).fuseArray = s.fuseArray ∧
    (s.readMore f).fuseImage = s.fuseImage ∧ (s.readMore f).fuseController = s.fuseController ∧
    (s.readMore f).images = s.images ∧ (s.readMore f).store = s.store ∧ (s.readMore f).segMap = s.segMap ∧
    (s.readMore f).slots = s.slots ∧ (s.readMore f).slotLru = s.slotLru ∧ (s.readMore f).lines = s.lines ∧
    (s.readMore f).lineLru = s.lineLru ∧ (s.readMore f).engine = s.engine ∧ (s.readMore f).flash = s.flash ∧
    (s.readMore f).arbiter = s.arbiter ∧ (s.readMore f).portA = s.portA ∧ (s.readMore f).portB = s.portB ∧
    (s.readMore f).permitRequest = s.permitRequest ∧ (s.readMore f).options = s.options ∧ (s.readMore f).permit = s.permit ∧
    (s.readMore f).rescan = s.rescan ∧ (s.readMore f).service = s.service ∧ (s.readMore f).nextEntry = s.nextEntry ∧
    (s.readMore f).nextFree = s.nextFree ∧ (s.readMore f).pending = s.pending :=
  ⟨rfl, rfl, rfl, rfl, rfl, rfl, rfl, rfl, rfl, rfl, rfl, rfl, rfl, rfl, rfl, rfl, rfl, rfl, rfl, rfl, rfl, rfl, rfl, rfl, rfl⟩

@[simp] theorem State.checkWhole_frame (s : State) (f : FuseImage) (x : Source) (fr : Frame) :
    (s.checkWhole f x fr).supplies = s.supplies ∧ (s.checkWhole f x fr).resetN = s.resetN ∧
    (s.checkWhole f x fr).fuseArray = s.fuseArray ∧ (s.checkWhole f x fr).fuseImage = s.fuseImage ∧
    (s.checkWhole f x fr).fuseController = s.fuseController ∧ (s.checkWhole f x fr).slots = s.slots ∧
    (s.checkWhole f x fr).slotLru = s.slotLru ∧ (s.checkWhole f x fr).lines = s.lines ∧
    (s.checkWhole f x fr).lineLru = s.lineLru ∧ (s.checkWhole f x fr).engine = s.engine ∧
    (s.checkWhole f x fr).flash = s.flash ∧ (s.checkWhole f x fr).arbiter = s.arbiter ∧
    (s.checkWhole f x fr).portA = s.portA ∧ (s.checkWhole f x fr).portB = s.portB ∧
    (s.checkWhole f x fr).permitRequest = s.permitRequest ∧ (s.checkWhole f x fr).options = s.options ∧
    (s.checkWhole f x fr).permit = s.permit ∧ (s.checkWhole f x fr).rescan = s.rescan ∧
    (s.checkWhole f x fr).service = s.service ∧ (s.checkWhole f x fr).nextEntry = s.nextEntry ∧
    (s.checkWhole f x fr).nextFree = s.nextFree ∧ (s.checkWhole f x fr).pending = s.pending :=
  by unfold State.checkWhole; split <;> simp

@[simp] theorem State.readOrCheck_frame (s : State) (f : FuseImage) (x : Source) (fr : Frame) :
    (s.readOrCheck f x fr).supplies = s.supplies ∧ (s.readOrCheck f x fr).resetN = s.resetN ∧
    (s.readOrCheck f x fr).fuseArray = s.fuseArray ∧ (s.readOrCheck f x fr).fuseImage = s.fuseImage ∧
    (s.readOrCheck f x fr).fuseController = s.fuseController ∧ (s.readOrCheck f x fr).slots = s.slots ∧
    (s.readOrCheck f x fr).slotLru = s.slotLru ∧ (s.readOrCheck f x fr).lines = s.lines ∧
    (s.readOrCheck f x fr).lineLru = s.lineLru ∧ (s.readOrCheck f x fr).engine = s.engine ∧
    (s.readOrCheck f x fr).flash = s.flash ∧ (s.readOrCheck f x fr).arbiter = s.arbiter ∧
    (s.readOrCheck f x fr).portA = s.portA ∧ (s.readOrCheck f x fr).portB = s.portB ∧
    (s.readOrCheck f x fr).permitRequest = s.permitRequest ∧ (s.readOrCheck f x fr).options = s.options ∧
    (s.readOrCheck f x fr).permit = s.permit ∧ (s.readOrCheck f x fr).rescan = s.rescan ∧
    (s.readOrCheck f x fr).service = s.service ∧ (s.readOrCheck f x fr).nextEntry = s.nextEntry ∧
    (s.readOrCheck f x fr).nextFree = s.nextFree ∧ (s.readOrCheck f x fr).pending = s.pending :=
  by unfold State.readOrCheck; split <;> simp

@[simp] theorem State.judgePart_frame (s : State) (f : FuseImage) (x : Source) (fr : Frame) (b : Bool) :
    (s.judgePart f x fr b).supplies = s.supplies ∧ (s.judgePart f x fr b).resetN = s.resetN ∧
    (s.judgePart f x fr b).fuseArray = s.fuseArray ∧ (s.judgePart f x fr b).fuseImage = s.fuseImage ∧
    (s.judgePart f x fr b).fuseController = s.fuseController ∧ (s.judgePart f x fr b).slots = s.slots ∧
    (s.judgePart f x fr b).slotLru = s.slotLru ∧ (s.judgePart f x fr b).lines = s.lines ∧
    (s.judgePart f x fr b).lineLru = s.lineLru ∧ (s.judgePart f x fr b).engine = s.engine ∧
    (s.judgePart f x fr b).flash = s.flash ∧ (s.judgePart f x fr b).arbiter = s.arbiter ∧
    (s.judgePart f x fr b).portA = s.portA ∧ (s.judgePart f x fr b).portB = s.portB ∧
    (s.judgePart f x fr b).permitRequest = s.permitRequest ∧ (s.judgePart f x fr b).options = s.options ∧
    (s.judgePart f x fr b).permit = s.permit ∧ (s.judgePart f x fr b).rescan = s.rescan ∧
    (s.judgePart f x fr b).service = s.service ∧ (s.judgePart f x fr b).nextEntry = s.nextEntry ∧
    (s.judgePart f x fr b).nextFree = s.nextFree ∧ (s.judgePart f x fr b).pending = s.pending :=
  by
  unfold State.judgePart
  split
  · split <;> (try split) <;> simp
  · simp

@[simp] theorem State.askHeader_frame (s : State) (f : FuseImage) (b : Bank) :
    (s.askHeader f b).supplies = s.supplies ∧ (s.askHeader f b).resetN = s.resetN ∧
    (s.askHeader f b).fuseArray = s.fuseArray ∧ (s.askHeader f b).fuseImage = s.fuseImage ∧
    (s.askHeader f b).fuseController = s.fuseController ∧ (s.askHeader f b).images = s.images ∧
    (s.askHeader f b).store = s.store ∧ (s.askHeader f b).segMap = s.segMap ∧ (s.askHeader f b).slots = s.slots ∧
    (s.askHeader f b).slotLru = s.slotLru ∧ (s.askHeader f b).lines = s.lines ∧ (s.askHeader f b).lineLru = s.lineLru ∧
    (s.askHeader f b).engine = s.engine ∧ (s.askHeader f b).flash = s.flash ∧ (s.askHeader f b).arbiter = s.arbiter ∧
    (s.askHeader f b).portA = s.portA ∧ (s.askHeader f b).portB = s.portB ∧
    (s.askHeader f b).permitRequest = s.permitRequest ∧ (s.askHeader f b).options = s.options ∧
    (s.askHeader f b).permit = s.permit ∧ (s.askHeader f b).rescan = s.rescan ∧ (s.askHeader f b).service = s.service ∧
    (s.askHeader f b).nextEntry = s.nextEntry ∧ (s.askHeader f b).nextFree = s.nextFree ∧
    (s.askHeader f b).pending = s.pending :=
  ⟨rfl, rfl, rfl, rfl, rfl, rfl, rfl, rfl, rfl, rfl, rfl, rfl, rfl, rfl, rfl, rfl, rfl, rfl, rfl, rfl, rfl, rfl, rfl, rfl, rfl⟩

@[simp] theorem State.endWalkRead_frame (s : State) :
    (s.endWalkRead).supplies = s.supplies ∧ (s.endWalkRead).resetN = s.resetN ∧ (s.endWalkRead).fuseArray = s.fuseArray ∧
    (s.endWalkRead).fuseImage = s.fuseImage ∧ (s.endWalkRead).fuseController = s.fuseController ∧
    (s.endWalkRead).images = s.images ∧ (s.endWalkRead).store = s.store ∧ (s.endWalkRead).segMap = s.segMap ∧
    (s.endWalkRead).slots = s.slots ∧ (s.endWalkRead).slotLru = s.slotLru ∧ (s.endWalkRead).lines = s.lines ∧
    (s.endWalkRead).lineLru = s.lineLru ∧ (s.endWalkRead).engine = s.engine ∧ (s.endWalkRead).arbiter = s.arbiter ∧
    (s.endWalkRead).portA = s.portA ∧ (s.endWalkRead).portB = s.portB ∧ (s.endWalkRead).permitRequest = s.permitRequest ∧
    (s.endWalkRead).options = s.options ∧ (s.endWalkRead).permit = s.permit ∧ (s.endWalkRead).rescan = s.rescan ∧
    (s.endWalkRead).service = s.service ∧ (s.endWalkRead).nextEntry = s.nextEntry ∧ (s.endWalkRead).nextFree = s.nextFree ∧
    (s.endWalkRead).pending = s.pending :=
  ⟨rfl, rfl, rfl, rfl, rfl, rfl, rfl, rfl, rfl, rfl, rfl, rfl, rfl, rfl, rfl, rfl, rfl, rfl, rfl, rfl, rfl, rfl, rfl, rfl⟩

/-- What one step of entry processing can come to: a frame popped, an image appended, a child's read begun, an error of an entry,
or the end of frame 0. -/
theorem State.walkStep_cases (s : State) (f : FuseImage) (src : Source) :
    (∃ top parent below, s.manifest.stack = top :: parent :: below ∧ headerEntryCount top.buffer ≤ top.next ∧
      s.walkStep f src =
        .more (s.modManifest fun m => { m with stack := { parent with next := parent.next + 1 } :: below })) ∨
    (∃ top rest im ds, s.manifest.stack = top :: rest ∧
      judgeImage f src s.images s.store.length ((top :: rest).reverse.filterMap (·.condition)) top.buffer
        (entryOffset top.buffer top.next) = .accepted im ds ∧
      s.walkStep f src =
        .more ((s.appendImage im ds).modManifest fun m => { m with stack := { top with next := top.next + 1 } :: rest })) ∨
    (∃ top rest frame, s.manifest.stack = top :: rest ∧
      judgeChild f src (top :: rest).length top.buffer (entryOffset top.buffer top.next) = .pushed frame ∧
      s.walkStep f src = .await (s.modManifest fun m =>
        { m with stack := frame :: top :: rest, walkRead := some ⟨frame.location, Config.headerBytes⟩ })) ∨
    (∃ e, s.walkStep f src = .failed e) ∨
    (∃ top, s.manifest.stack = [top] ∧ headerEntryCount top.buffer ≤ top.next ∧ s.walkStep f src = .complete top.buffer) := by
  unfold State.walkStep
  split
  · exact .inr (.inr (.inr (.inl ⟨_, rfl⟩)))
  · rename_i top rest hs
    split
    · rename_i hn
      split
      · exact .inr (.inr (.inr (.inr ⟨top, hs, hn, rfl⟩)))
      · exact .inl ⟨top, _, _, hs, hn, rfl⟩
    · dsimp only
      split
      · exact .inr (.inr (.inr (.inl ⟨_, rfl⟩)))
      · split
        · exact .inr (.inr (.inr (.inl ⟨_, rfl⟩)))
        · exact .inr (.inl ⟨top, rest, _, _, hs, ‹_›, rfl⟩)
      · split
        · exact .inr (.inr (.inr (.inl ⟨_, rfl⟩)))
        · exact .inr (.inr (.inl ⟨top, rest, _, hs, ‹_›, rfl⟩))

/-- Entry processing keeps `Q` from one entry to the next and ends in `P`. -/
theorem State.walkEntries_induct (f : FuseImage) (src : Source) (P Q : State → Prop) (hstop : ∀ s, Q s → P s)
    (hmore : ∀ s t, Q s → s.walkStep f src = .more t → Q t) (hawait : ∀ s t, Q s → s.walkStep f src = .await t → P t)
    (hfail : ∀ s e, Q s → s.walkStep f src = .failed e → P (s.endCandidate f src e))
    (hdone : ∀ s b, Q s → s.walkStep f src = .complete b → P (s.completeWalk src b)) (n : Nat) (s : State) (h : Q s) :
    P (State.walkEntries f src n s) := by
  induction n generalizing s with
  | zero => exact hstop s h
  | succ n ih =>
    unfold State.walkEntries
    split
    · exact ih _ (hmore _ _ h ‹_›)
    · exact hawait _ _ h ‹_›
    · exact hfail _ _ h ‹_›
    · exact hdone _ _ h ‹_›

@[simp] theorem State.walkEntries_frame (f : FuseImage) (src : Source) (n : Nat) (s : State) :
    (State.walkEntries f src n s).supplies = s.supplies ∧ (State.walkEntries f src n s).resetN = s.resetN ∧
    (State.walkEntries f src n s).fuseArray = s.fuseArray ∧ (State.walkEntries f src n s).fuseImage = s.fuseImage ∧
    (State.walkEntries f src n s).fuseController = s.fuseController ∧ (State.walkEntries f src n s).slots = s.slots ∧
    (State.walkEntries f src n s).slotLru = s.slotLru ∧ (State.walkEntries f src n s).lines = s.lines ∧
    (State.walkEntries f src n s).lineLru = s.lineLru ∧ (State.walkEntries f src n s).engine = s.engine ∧
    (State.walkEntries f src n s).flash = s.flash ∧ (State.walkEntries f src n s).permitRequest = s.permitRequest ∧
    (State.walkEntries f src n s).nextEntry = s.nextEntry ∧ (State.walkEntries f src n s).nextFree = s.nextFree ∧
    (State.walkEntries f src n s).pending = s.pending := by
  refine State.walkEntries_induct f src _ (fun t => t.supplies = s.supplies ∧
    t.resetN = s.resetN ∧
    t.fuseArray = s.fuseArray ∧
    t.fuseImage = s.fuseImage ∧
    t.fuseController = s.fuseController ∧
    t.slots = s.slots ∧
    t.slotLru = s.slotLru ∧
    t.lines = s.lines ∧
    t.lineLru = s.lineLru ∧
    t.engine = s.engine ∧
    t.flash = s.flash ∧
    t.permitRequest = s.permitRequest ∧
    t.nextEntry = s.nextEntry ∧
    t.nextFree = s.nextFree ∧
    t.pending = s.pending) (fun _ h => h)
    ?_ ?_ (fun t e h _ => by simpa using h) (fun t b h _ => by simpa using h) n s (by simp)
  all_goals
    intro t u h e
    rcases t.walkStep_cases f src with ⟨_, _, _, _, _, g⟩ | ⟨_, _, _, _, _, _, g⟩ | ⟨_, _, _, _, _, g⟩ | ⟨_, g⟩ | ⟨_, _, _, g⟩ <;>
      rw [g] at e <;> cases e <;> simpa using h


end Sys2Proof.Machine
end

