-- ==== Sys2Proof/Laws/Permit.lean ====
section
/-! SUPPORT. Laws/Permit.lean: what the judgements after an event do: the state rules of the permit (`judgePermit`) as
`PermitFollows` says, and the release conditions (`judgeReleases`) as `PortJudged` says. -/

namespace Sys2Proof.Machine

theorem State.mayRise_iff (s : State) : s.mayRise = true ↔ s.permitWanted s.permit := by
  simp only [State.mayRise, State.eligible, State.allIncludedComplete, State.permitWanted, Bool.and_eq_true, beq_iff_eq,
    List.all_eq_true, Bool.or_eq_true, Bool.not_eq_true', Option.isNone_iff_eq_none]
  constructor
  · rintro ⟨⟨⟨h, a⟩, c⟩, r⟩
    exact ⟨h, fun im hi hn => by rcases a im hi with h | h <;> simp_all, c, r⟩
  · rintro ⟨h, a, c, r⟩
    exact ⟨⟨⟨h, fun im hi => by cases hn : im.included <;> simp_all⟩, c⟩, r⟩

/-- The state rules leave what they judge by as it is. -/
theorem State.judgePermit_wanted (s : State) (c : PermitController) :
    s.judgePermit.permitWanted c ↔ s.permitWanted c := by
  simp [State.permitWanted]

theorem PermitController.delaysInForce_some {c : PermitController} {d : Delays} (h : c.delays = some d) :
    c.delaysInForce = d := by simp [PermitController.delaysInForce, h]

theorem State.startRise_waits (s : State) (d : Delays) (l : PermitLine) (hd : s.permit.delays = some d)
    (hb : ∀ k ∈ l.before, d.rise.get k = 0) (hl : d.rise.get l ≠ 0) :
    s.startRise.permit = { s.permit with
      state := .rising, lines := s.startRise.permit.lines, timer := some ⟨l, d.rise.get l⟩ } ∧
      (∀ k, s.startRise.permit.lines.get k = if k ∈ l.before then .active else s.permit.lines.get k) ∧
      s.startRise.service = s.service := by
  cases l <;> simp [PermitLine.before] at hb <;>
    simp [State.startRise, State.riseThrough, State.modPermit, PermitController.delaysInForce, hd, hb, hl, PermitLine.before] <;>
    intro k <;> cases k <;> simp [PerLine.get, PerLine.set]

theorem State.startRise_ends (s : State) (d : Delays) (hd : s.permit.delays = some d) (h0 : ∀ k, d.rise.get k = 0) :
    s.startRise.permit = { s.permit with state := .granted, lines := ⟨.active, .active, .active⟩, timer := none } ∧
      s.startRise.service = s.service.setFlag .permitChange := by
  simp [State.startRise, State.riseThrough, State.modPermit, PermitController.delaysInForce, hd, h0, State.raise, PerLine.set]

theorem State.startFall_waits (s : State) (d : Delays) (l : PermitLine) (hd : s.permit.delays = some d)
    (ha : s.permit.lines.get l = .active) (hb : ∀ k, s.permit.lines.get k = .active → l ∈ k.before → d.fall.get k = 0)
    (hl : d.fall.get l ≠ 0) :
    s.startFall.permit = { s.permit with
      state := .falling, lines := s.startFall.permit.lines, timer := some ⟨l, d.fall.get l⟩ } ∧
      (∀ k, s.startFall.permit.lines.get k =
        if s.permit.lines.get k = .active ∧ l ∈ k.before then .inactive else s.permit.lines.get k) ∧
      s.startFall.service = s.service := by
  have h0 := hb .pl0
  have h1 := hb .pl1
  have h2 := hb .pl2
  by_cases a0 : s.permit.lines.get .pl0 = .active <;> by_cases a1 : s.permit.lines.get .pl1 = .active <;>
    by_cases a2 : s.permit.lines.get .pl2 = .active <;> cases l <;>
    simp_all [PermitLine.before, State.startFall, PermitController.activeLines, State.fallThrough, State.modPermit,
      PermitController.delaysInForce] <;>
    intro k <;> cases k <;> simp_all [PerLine.get, PerLine.set]

theorem State.fallThrough_ends (ls : List PermitLine) (s : State) (d : Delays) (hd : s.permit.delays = some d)
    (hw : s.mayRise = false) (hf : ∀ l ∈ ls, d.fall.get l = 0) :
    State.fallThrough ls s = (s.modPermit fun c => { c with
      state := .withheld, lines := ls.foldl (fun x l => x.set l .inactive) c.lines, timer := none }).raise .permitChange := by
  induction ls generalizing s with
  | nil =>
    have : ((s.modPermit fun c => { c with state := .withheld, timer := none }).raise .permitChange).mayRise = false := hw
    simp [State.fallThrough, this]
  | cons l ls ih =>
    rw [State.fallThrough, PermitController.delaysInForce_some hd, if_pos (hf l (.head _))]
    exact ih (s.modPermit fun c => { c with lines := c.lines.set l .inactive }) hd hw fun k hk => hf k (.tail _ hk)

theorem State.startFall_ends (s : State) (d : Delays) (hd : s.permit.delays = some d) (hw : s.mayRise = false)
    (hf : ∀ k, s.permit.lines.get k = .active → d.fall.get k = 0) :
    s.startFall.permit = { s.permit with state := .withheld, lines := s.startFall.permit.lines, timer := none } ∧
      (∀ k, s.startFall.permit.lines.get k = if s.permit.lines.get k = .active then .inactive else s.permit.lines.get k) ∧
      s.startFall.service = s.service.setFlag .permitChange := by
  have key : s.startFall = _ := State.fallThrough_ends s.permit.activeLines
    (s.modPermit fun c => { c with state := .falling, timer := none }) d hd hw fun l hl =>
      hf l (by simpa using (List.mem_filter.mp hl).2)
  rw [key]
  refine ⟨rfl, fun k => ?_, rfl⟩
  by_cases a0 : s.permit.lines.get .pl0 = .active <;> by_cases a1 : s.permit.lines.get .pl1 = .active <;>
    by_cases a2 : s.permit.lines.get .pl2 = .active <;> cases k <;>
    simp_all [PermitController.activeLines, State.modPermit, State.raise, PerLine.get, PerLine.set]

theorem ServicePort.setFlag_again (v : ServicePort) (e : Event) : (v.setFlag e).setFlag e = v.setFlag e := by
  simp [ServicePort.setFlag, BitVec.or_assoc]

theorem State.riseThrough_service (ls : List PermitLine) (s : State) :
    (State.riseThrough ls s).service = s.service ∨ (State.riseThrough ls s).service = s.service.setFlag .permitChange := by
  induction ls generalizing s with
  | nil => exact .inr rfl
  | cons l ls ih =>
    rw [State.riseThrough]
    split
    · exact ih _
    · exact .inl rfl

theorem State.fallThrough_service (ls : List PermitLine) (s : State) :
    (State.fallThrough ls s).service = s.service ∨ (State.fallThrough ls s).service = s.service.setFlag .permitChange := by
  induction ls generalizing s with
  | nil =>
    rw [State.fallThrough]
    split
    · refine .inr ((State.riseThrough_service _ _).elim id fun h => ?_)
      rw [State.startRise, h]
      exact ServicePort.setFlag_again s.service .permitChange
    · exact .inr rfl
  | cons l ls ih =>
    rw [State.fallThrough]
    split
    · exact ih _
    · exact .inl rfl

theorem State.judgePermit_service (s : State) :
    s.judgePermit.service = s.service ∨ s.judgePermit.service = s.service.setFlag .permitChange := by
  unfold State.judgePermit
  repeat' split
  all_goals first
    | exact .inl rfl
    | exact State.riseThrough_service _ _
    | exact State.fallThrough_service _ _

theorem State.judgePermit_falls (s : State) (h : s.permit.state = .rising ∨ s.permit.state = .granted) (hw : s.mayRise = false)
    (ha : ∃ k, s.permit.lines.get k = .active) : s.judgePermit = s.startFall := by
  obtain ⟨k, hk⟩ := ha
  have : s.permit.activeLines ≠ [] := List.ne_nil_of_mem (a := k) (List.mem_filter.mpr ⟨by cases k <;> decide, by simp [hk]⟩)
  unfold State.judgePermit
  rcases h with h | h <;> simp [h, hw, this]

theorem State.judgePermit_follows (s : State) : PermitFollows s.permit s.service s.judgePermit where
  stands h := by
    rw [State.judgePermit_wanted, ← State.mayRise_iff] at h
    unfold State.judgePermit
    rcases h with h | h | ⟨h, w⟩ | ⟨h | h, w⟩ <;> rw [h] <;> simp_all
  rises d l h w hd hb hl := by
    rw [State.judgePermit_wanted, ← State.mayRise_iff] at w
    have e : s.judgePermit = s.startRise := by simp [State.judgePermit, h, w]
    rw [e]
    exact s.startRise_waits d l hd hb hl
  risesAtOnce d h w hd h0 := by
    rw [State.judgePermit_wanted, ← State.mayRise_iff] at w
    have e : s.judgePermit = s.startRise := by simp [State.judgePermit, h, w]
    rw [e]
    exact s.startRise_ends d hd h0
  falls d l h w hd ha hb hl := by
    rw [State.judgePermit_wanted, ← State.mayRise_iff] at w
    rw [s.judgePermit_falls h (by simpa using w) ⟨l, ha⟩]
    exact s.startFall_waits d l hd ha hb hl
  fallsAtOnce d h w hd ha hf := by
    rw [State.judgePermit_wanted, ← State.mayRise_iff] at w
    rw [s.judgePermit_falls h (by simpa using w) ha]
    exact s.startFall_ends d hd (by simpa using w) hf
  raised := s.judgePermit_service
  abandoned h w hn := by
    rw [State.judgePermit_wanted, ← State.mayRise_iff] at w
    have e : s.permit.activeLines = [] := by simp [PermitController.activeLines, hn]
    simp [State.judgePermit, h, w, e, State.modPermit]

theorem State.judgeRelease_port (s : State) (p q : Port) : (s.judgeRelease p).port q =
    if p = q ∧ (s.port p).state ≠ .released ∧ s.releaseCondition p = true then { s.port q with state := .released }
    else s.port q := by
  unfold State.judgeRelease
  cases p <;> cases q <;> simp <;> split <;> simp_all [State.port, State.modPort]

theorem State.judgeReleases_port (s : State) (p : Port) : s.judgeReleases.port p =
    if (s.port p).state ≠ .released ∧ s.releaseCondition p = true then { s.port p with state := .released } else s.port p := by
  have h : (s.judgeRelease .a).releaseCondition .b = s.releaseCondition .b := by
    simp [State.releaseCondition, State.isServing, State.judgeRelease_port]
  cases p <;> simp [State.judgeReleases, State.judgeRelease_port, h]

theorem State.judgeReleases_judged (s : State) (p : Port) : PortJudged s p s.judgeReleases := by
  have h : s.judgeReleases.releaseCondition p = s.releaseCondition p := by
    have hs : (s.judgeReleases.port p).holdServed = (s.port p).holdServed := by rw [s.judgeReleases_port]; split <;> rfl
    simp [State.releaseCondition, State.isServing, hs]
  unfold PortJudged
  rw [h, s.judgeReleases_port]
  by_cases a : (s.port p).state = .released <;> by_cases b : s.releaseCondition p = true <;> simp [a, b]

end Sys2Proof.Machine
end

