-- ==== Sys2Proof/Laws/Release.lean ====
section
/-! SUPPORT. Laws/Release.lean: what giving up holds does to the cache lines and their LRU order: an entry that leaves its queue
(`detach`), an emptied queue (`emptyQueue`) and undecided READs that end (`endReads`) change each line as `Line.released` says and
the order as `State.lruReleased` says. -/

namespace Sys2Proof.Machine

/-- A line from which one pin is released, not by a STREAM collection (R94, R95). -/
def Line.unpinned (x : Line) : Line :=
  if x.state = .stale ∧ x.pins ≤ 1 then x.freed
  else { x with pins := x.pins - 1, streamMark := x.streamMark && !(x.state == .valid && decide (x.pins ≤ 1)) }

theorem State.releasePin_line (s : State) (n m : Fin 64) :
    (s.releasePin n false).lines[m] = if m = n then s.lines[n].unpinned else s.lines[m] := by
  have key : ∀ x : LineState, s.lines[n].state = x →
      (s.releasePin n false).lines[m] = if m = n then s.lines[n].unpinned else s.lines[m] := by
    intro x hx
    unfold State.releasePin Line.unpinned
    dsimp only
    by_cases h : m = n
    · subst h
      rw [hx]
      cases x <;> simp [Line.freed] <;> (repeat' split) <;> simp_all [Line.freed]
    · have : (n : Nat) ≠ m := fun e => h (Fin.ext e.symm)
      rw [hx]
      cases x <;> simp [h] <;> (repeat' split) <;> simp [this]
  exact key _ rfl

theorem State.dropHold_line (s : State) (p : Port) (id : Nat) (h : SegHold) (m : Fin 64) :
    (s.dropHold p id false h).lines[m] =
      if h.hold = .pinned m then s.lines[m].unpinned
      else if h.hold = .waiting m then
        { s.lines[m] with waiters := s.lines[m].waiters.filter fun w => !(w.port == p && w.entry == id) }
      else s.lines[m] := by
  unfold State.dropHold
  rcases hh : h.hold with n | n | _
  · have := s.releasePin_line n m
    by_cases e : m = n
    · subst e; simp only [if_true] at this ⊢; exact this
    · have e' : n ≠ m := fun x => e x.symm
      simp only [Hold.pinned.injEq, e', e, if_false, reduceCtorEq] at this ⊢
      exact this
  · by_cases e : n = m
    · subst e; simp [State.leaveWaiters]
    · have : (n : Nat) ≠ m := fun x => e (Fin.ext x)
      simp [State.leaveWaiters, e, this]
  · simp

/-- Several holds given up one after another, each with its port and the serial number of its entry. -/
def State.dropAll (s : State) (os : List (Port × Nat × SegHold)) : State :=
  os.foldl (fun t o => t.dropHold o.1 o.2.1 false o.2.2) s

/-- A line after a list of holds has been given up. -/
def Line.dropped (os : List (Port × Nat × SegHold)) (n : Fin 64) (x : Line) : Line :=
  let taken := os.countP fun o => o.2.2.hold == .pinned n
  let y := { x with waiters := x.waiters.filter fun w =>
    !(os.any fun o => o.1 == w.port && o.2.1 == w.entry && o.2.2.hold == .waiting n) }
  if taken = 0 then y
  else if x.state = .stale ∧ x.pins ≤ taken then y.freed
  else { y with pins := x.pins - taken, streamMark := x.streamMark && !(x.state == .valid && decide (x.pins ≤ taken)) }

theorem Line.dropped_pin (o) (os : List (Port × Nat × SegHold)) (n : Fin 64) (x : Line) (h : o.2.2.hold = .pinned n) :
    Line.dropped (o :: os) n x = Line.dropped os n x.unpinned := by
  have hw : (o.2.2.hold == Hold.waiting n) = false := by simp [h]
  have hp : (o.2.2.hold == Hold.pinned n) = true := by simp [h]
  have hf : (fun w : Waiter => !((o :: os).any fun o => o.1 == w.port && o.2.1 == w.entry && o.2.2.hold == .waiting n)) =
      fun w => !(os.any fun o => o.1 == w.port && o.2.1 == w.entry && o.2.2.hold == .waiting n) := by
    funext w; rw [List.any_cons, hw, Bool.and_false, Bool.false_or]
  unfold Line.dropped
  rw [hf]
  simp only [List.countP_cons, hp, if_true, Line.unpinned]
  generalize os.countP (fun o => o.2.2.hold == Hold.pinned n) = k
  generalize (fun w : Waiter => !(os.any fun o => o.1 == w.port && o.2.1 == w.entry && o.2.2.hold == .waiting n)) = f
  rcases x with ⟨st, tag, data, pins, ws, fc, mark⟩
  by_cases h1 : st = .stale
  · subst h1
    by_cases h2 : pins ≤ 1
    · have : pins ≤ k + 1 := by omega
      simp [h2, this, Line.freed]
    · by_cases h5 : k = 0
      · subst h5; simp [h2]
      · by_cases h3 : pins ≤ k + 1
        · have h4 : pins - 1 ≤ k := by omega
          simp [h2, h3, h5, Line.freed]
        · have : ¬ pins - 1 ≤ k := by omega
          have e : pins - (k + 1) = pins - 1 - k := by omega
          simp [h2, h3, h5, e]
  · have e : pins - (k + 1) = pins - 1 - k := by omega
    by_cases h5 : k = 0
    · subst h5; simp [h1]
    · simp [h1, h5, e]
      rcases mark with _ | _ <;> simp
      rintro (hh | hh)
      · exact .inl hh
      · exact .inr (by omega)

theorem Line.dropped_wait (o) (os : List (Port × Nat × SegHold)) (n : Fin 64) (x : Line) (h : o.2.2.hold = .waiting n) :
    Line.dropped (o :: os) n x = Line.dropped os n
      { x with waiters := x.waiters.filter fun w => !(w.port == o.1 && w.entry == o.2.1) } := by
  have hw : (o.2.2.hold == Hold.pinned n) = false := by simp [h]
  have : (fun w : Waiter => !((o :: os).any fun o => o.1 == w.port && o.2.1 == w.entry && o.2.2.hold == .waiting n)) =
      fun w => (!(os.any fun o => o.1 == w.port && o.2.1 == w.entry && o.2.2.hold == .waiting n)) &&
        !(w.port == o.1 && w.entry == o.2.1) := by
    funext w
    simp only [List.any_cons, h, beq_self_eq_true, Bool.and_true, Bool.not_or]
    rw [Bool.and_comm, Bool.beq_comm (a := o.1), Bool.beq_comm (a := o.2.1)]
  simp only [Line.dropped, List.countP_cons, hw, this, List.filter_filter]
  simp

theorem Line.dropped_other (o) (os : List (Port × Nat × SegHold)) (n : Fin 64) (x : Line) (h : o.2.2.hold ≠ .pinned n)
    (h' : o.2.2.hold ≠ .waiting n) : Line.dropped (o :: os) n x = Line.dropped os n x := by
  have h1 : (o.2.2.hold == Hold.pinned n) = false := by simp [h]
  have h2 : (o.2.2.hold == Hold.waiting n) = false := by simp [h']
  have hf : (fun w : Waiter => !((o :: os).any fun o => o.1 == w.port && o.2.1 == w.entry && o.2.2.hold == .waiting n)) =
      fun w => !(os.any fun o => o.1 == w.port && o.2.1 == w.entry && o.2.2.hold == .waiting n) := by
    funext w; rw [List.any_cons, h2, Bool.and_false, Bool.false_or]
  have hc : (o :: os).countP (fun o => o.2.2.hold == Hold.pinned n) = os.countP (fun o => o.2.2.hold == Hold.pinned n) := by
    rw [List.countP_cons, h1]; rfl
  unfold Line.dropped
  rw [hf, hc]

theorem State.dropAll_line (os : List (Port × Nat × SegHold)) (s : State) (n : Fin 64) :
    (s.dropAll os).lines[n] = Line.dropped os n s.lines[n] := by
  induction os generalizing s with
  | nil =>
    have : (fun w : Waiter => !(false)) = fun _ => true := rfl
    simp only [State.dropAll, Line.dropped, List.foldl_nil, List.countP_nil, List.any_nil, if_true,
      Bool.not_false, List.filter_eq_self.mpr (fun _ _ => rfl)]
  | cons o os ih =>
    have : (s.dropAll (o :: os)) = (s.dropHold o.1 o.2.1 false o.2.2).dropAll os := rfl
    rw [this, ih, State.dropHold_line]
    split
    · rw [Line.dropped_pin _ _ _ _ ‹_›]
    · split
      · rw [Line.dropped_wait _ _ _ _ ‹_›]
      · rw [Line.dropped_other _ _ _ _ ‹_› ‹_›]


/-- `n` was VALID with its stream mark set in `s`, and the mark is gone in `t`. -/
def State.lostMark (s t : State) (n : Fin 64) : Bool :=
  s.lines[n].state == .valid && s.lines[n].streamMark && !t.lines[n].streamMark

/-- `n` was STALE in `s` and is FREE in `t`. -/
def State.wentFree (s t : State) (n : Fin 64) : Bool := s.lines[n].state == .stale && t.lines[n].state == .free

/-- `t` is `s` after some pins were released: how states, stream marks and the LRU order have changed. -/
structure State.ReleasedInto (s t : State) : Prop where
  state : ∀ n : Fin 64, t.lines[n].state = s.lines[n].state ∨ (s.lines[n].state = .stale ∧ t.lines[n].state = .free)
  mark : ∀ n : Fin 64, t.lines[n].streamMark = true → s.lines[n].streamMark = true
  order : ∃ front : List (Fin 64), front.Nodup ∧ (∀ n, n ∈ front ↔ s.lostMark t n = true) ∧
    t.lineLru = front ++ s.lineLru.filter fun n => !s.lostMark t n && !s.wentFree t n

theorem State.ReleasedInto.refl (s : State) : s.ReleasedInto s := by
  refine ⟨fun _ => .inl rfl, fun _ h => h, [], List.nodup_nil, fun n => ?_, ?_⟩
  · cases h : s.lines[n].streamMark <;> simp [-Fin.getElem_fin, State.lostMark, h]
  · rw [List.nil_append]; symm; refine List.filter_eq_self.mpr fun n _ => ?_
    cases h : s.lines[n].streamMark <;> cases h' : s.lines[n].state <;>
      simp [-Fin.getElem_fin, State.lostMark, State.wentFree, h, h']

theorem State.ReleasedInto.congr {s t u : State} (h : s.ReleasedInto t) (hl : u.lineLru = t.lineLru)
    (hs : ∀ n : Fin 64, u.lines[n].state = t.lines[n].state)
    (hm : ∀ n : Fin 64, u.lines[n].streamMark = t.lines[n].streamMark) :
    s.ReleasedInto u := by
  have e1 : s.lostMark u = s.lostMark t := by funext n; simp only [State.lostMark, hm]
  have e2 : s.wentFree u = s.wentFree t := by funext n; simp only [State.wentFree, hs]
  refine ⟨fun n => by rw [hs]; exact h.state n, fun n => by rw [hm]; exact h.mark n, ?_⟩
  rw [e1, e2, hl]; exact h.order

theorem lru_erase_filter {l : List (Fin 64)} (h : l.Nodup) (p : Fin 64 → Bool) (n : Fin 64) :
    (l.filter p).erase n = l.filter fun m => p m && decide (m ≠ n) := by
  rw [List.Nodup.erase_eq_filter (h.filter p), List.filter_filter]
  congr 1; funext m; rw [Bool.and_comm]; congr 1
  by_cases e : m = n <;> simp [-Fin.getElem_fin, e]

theorem State.releasePin_into {s t : State} (hd : s.lineLru.Nodup) (h : s.ReleasedInto t) (n : Fin 64) :
    s.ReleasedInto (t.releasePin n false) := by
  have hl := t.releasePin_line n
  by_cases h1 : t.lines[n].state = .stale ∧ t.lines[n].pins ≤ 1
  · have hn : s.lines[n].state = .stale := by
      rcases h.state n with e | ⟨e, e'⟩
      · rw [← e, h1.1]
      · exact e
    have hlru : (t.releasePin n false).lineLru = t.lineLru.erase n := by
      simp [-Fin.getElem_fin, State.releasePin, h1.1, h1.2, State.freeLine, State.leaveLru, State.modLine]
    have hx : (t.releasePin n false).lines[n] = t.lines[n].freed := by
      rw [hl n, if_pos rfl]; simp [-Fin.getElem_fin, Line.unpinned, h1]
    have ho : ∀ m, m ≠ n → (t.releasePin n false).lines[m] = t.lines[m] := fun m e => by rw [hl m, if_neg e]
    have e1 : s.lostMark (t.releasePin n false) = s.lostMark t := by
      funext m; by_cases e : m = n
      · subst e; simp only [State.lostMark, hn]; rfl
      · simp only [State.lostMark, ho m e]
    have e2 : s.wentFree (t.releasePin n false) = fun m => s.wentFree t m || decide (m = n) := by
      funext m; by_cases e : m = n
      · subst e; simp only [State.wentFree, hx, hn]; simp [-Fin.getElem_fin, Line.freed]
      · simp only [State.wentFree, ho m e]; simp [-Fin.getElem_fin, e]
    refine ⟨fun m => ?_, fun m => ?_, ?_⟩
    · by_cases e : m = n
      · subst e; rw [hx]; exact .inr ⟨hn, rfl⟩
      · rw [ho m e]; exact h.state m
    · by_cases e : m = n
      · subst e; rw [hx]; simp [-Fin.getElem_fin, Line.freed]
      · rw [ho m e]; exact h.mark m
    · obtain ⟨front, fd, fm, fl⟩ := h.order
      have nf : n ∉ front := by rw [fm]; simp [-Fin.getElem_fin, State.lostMark, hn]
      refine ⟨front, fd, fun m => by rw [e1]; exact fm m, ?_⟩
      rw [hlru, fl, List.erase_append_right _ nf, lru_erase_filter hd, e1, e2]
      congr 2; funext m; by_cases e : m = n <;> simp [-Fin.getElem_fin, e]
  · by_cases h2 : t.lines[n].state = .valid ∧ t.lines[n].pins ≤ 1 ∧ t.lines[n].streamMark = true
    · obtain ⟨v, p1, mk⟩ := h2
      have hn : s.lines[n].state = .valid := by
        rcases h.state n with e | ⟨e, e'⟩
        · rw [← e, v]
        · rw [v] at e'; cases e'
      have hlru : (t.releasePin n false).lineLru = n :: t.lineLru.erase n := by
        simp [-Fin.getElem_fin, State.releasePin, v, p1, mk, State.demoteLine, State.modLine]
      have hx : (t.releasePin n false).lines[n] = { t.lines[n] with pins := t.lines[n].pins - 1, streamMark := false } := by
        rw [hl n, if_pos rfl]; simp [-Fin.getElem_fin, Line.unpinned, v, p1]
      have ho : ∀ m, m ≠ n → (t.releasePin n false).lines[m] = t.lines[m] := fun m e => by rw [hl m, if_neg e]
      have e1 : s.lostMark (t.releasePin n false) = fun m => s.lostMark t m || decide (m = n) := by
        funext m; by_cases e : m = n
        · subst e; simp only [State.lostMark, hx, hn, h.mark _ mk]; simp [-Fin.getElem_fin]
        · simp only [State.lostMark, ho m e]; simp [-Fin.getElem_fin, e]
      have e2 : s.wentFree (t.releasePin n false) = s.wentFree t := by
        funext m; by_cases e : m = n
        · subst e; simp only [State.wentFree, hn]; rfl
        · simp only [State.wentFree, ho m e]
      refine ⟨fun m => ?_, fun m => ?_, ?_⟩
      · by_cases e : m = n
        · subst e; rw [hx]; exact h.state m
        · rw [ho m e]; exact h.state m
      · by_cases e : m = n
        · subst e; rw [hx]; simp [-Fin.getElem_fin]
        · rw [ho m e]; exact h.mark m
      · obtain ⟨front, fd, fm, fl⟩ := h.order
        have nf : n ∉ front := by rw [fm]; simp [-Fin.getElem_fin, State.lostMark, mk]
        refine ⟨n :: front, List.nodup_cons.mpr ⟨nf, fd⟩, fun m => ?_, ?_⟩
        · rw [e1, List.mem_cons, fm]; simp [-Fin.getElem_fin, or_comm]
        · rw [hlru, fl, List.erase_append_right _ nf, lru_erase_filter hd, e1, e2, List.cons_append]
          congr 2; refine List.filter_congr fun m _ => ?_; by_cases e : m = n <;> simp [-Fin.getElem_fin, e, Bool.and_comm]
    · refine h.congr ?_ (fun m => ?_) fun m => ?_
      · unfold State.releasePin; dsimp only
        cases hs : t.lines[n].state <;> simp only [Bool.false_or, Bool.false_eq_true, if_false] <;>
          (repeat' split) <;> simp_all [-Fin.getElem_fin, State.modLine]
      · rw [hl m]; split
        · rename_i e; subst e; unfold Line.unpinned; rw [if_neg h1]
        · rfl
      · rw [hl m]; split
        · rename_i e; subst e; unfold Line.unpinned; rw [if_neg h1]
          show (t.lines[m].streamMark && !(t.lines[m].state == LineState.valid && decide (t.lines[m].pins ≤ 1))) =
            t.lines[m].streamMark
          cases hm : t.lines[m].streamMark
          · rfl
          · by_cases v : t.lines[m].state = .valid
            · have : ¬ t.lines[m].pins ≤ 1 := fun p => h2 ⟨v, p, hm⟩
              simp [-Fin.getElem_fin, this]
            · simp [-Fin.getElem_fin, v]
        · rfl

theorem State.dropHold_into {s t : State} (hd : s.lineLru.Nodup) (h : s.ReleasedInto t) (p : Port) (id : Nat) (g : SegHold) :
    s.ReleasedInto (t.dropHold p id false g) := by
  have hl := t.dropHold_line p id g
  rcases e : g.hold with n | n | _
  · rw [State.dropHold, e]; exact releasePin_into hd h _
  · refine h.congr (by rw [State.dropHold, e]; rfl) (fun m => ?_) fun m => ?_ <;>
    · rw [hl m, e]; split
      · contradiction
      · split <;> rfl
  · rw [State.dropHold, e]; exact h

theorem State.dropAll_into {s : State} (hd : s.lineLru.Nodup) (os : List (Port × Nat × SegHold)) :
    ∀ t, s.ReleasedInto t → s.ReleasedInto (t.dropAll os) := by
  induction os with
  | nil => exact fun t h => h
  | cons o os ih => exact fun t h => ih _ (dropHold_into hd h _ _ _)

/-- The holds of the entries `gone`, in order, each with its port and its entry's serial number. -/
def heldBy (gone : List (Port × Entry)) : List (Port × Nat × SegHold) :=
  gone.flatMap fun g => g.2.holds.map fun h => (g.1, g.2.id, h)

theorem heldBy_append (a b : List (Port × Entry)) : heldBy (a ++ b) = heldBy a ++ heldBy b := by
  simp [heldBy]

/-- Giving up every hold of the entries `gone` changes a line as `Line.released` says. -/
theorem Line.dropped_heldBy (gone : List (Port × Entry)) (n : Fin 64) (x : Line) :
    Line.dropped (heldBy gone) n x = x.released gone n := by
  have hc : (heldBy gone).countP (fun o => o.2.2.hold == Hold.pinned n) =
      (gone.map fun g => g.2.holds.countP fun h => h.hold == .pinned n).sum := by
    simp [heldBy, List.countP_flatMap, List.countP_map, Function.comp_def]
  have ha : (fun w : Waiter => !((heldBy gone).any fun o => o.1 == w.port && o.2.1 == w.entry && o.2.2.hold == .waiting n)) =
      fun w => !(gone.any fun g => g.1 == w.port && g.2.id == w.entry && g.2.holds.any fun h => h.hold == .waiting n) := by
    funext w; congr 1
    rw [Bool.eq_iff_iff]
    simp only [heldBy, List.any_eq_true, List.mem_flatMap, List.mem_map, Bool.and_eq_true]
    constructor
    · rintro ⟨_, ⟨g, hg, h, hh, rfl⟩, ⟨h1, h2⟩, h3⟩
      exact ⟨g, hg, ⟨h1, h2⟩, h, hh, h3⟩
    · rintro ⟨g, hg, ⟨h1, h2⟩, h, hh, h3⟩
      exact ⟨_, ⟨g, hg, h, hh, rfl⟩, ⟨h1, h2⟩, h3⟩
  unfold Line.dropped Line.released
  rw [hc, ha]

theorem State.detach_eq_dropAll (s : State) (p : Port) (e : Entry) :
    s.detach p e false = s.dropAll (e.holds.map fun h => (p, e.id, h)) := by
  simp [State.detach, State.dropAll, List.foldl_map]

theorem State.dropAll_append (s : State) (a b : List (Port × Nat × SegHold)) : s.dropAll (a ++ b) = (s.dropAll a).dropAll b :=
  List.foldl_append ..

theorem State.foldl_detach_eq_dropAll (p : Port) (es : List Entry) :
    ∀ s : State, es.foldl (fun t e => t.detach p e false) s = s.dropAll (heldBy (es.map fun e => (p, e))) := by
  induction es with
  | nil => exact fun s => rfl
  | cons e es ih =>
    intro s
    rw [List.foldl_cons, ih, State.detach_eq_dropAll, ← State.dropAll_append]
    simp [heldBy]

/-- `t` has the lines and the LRU order of `s` after the entries `gone` gave up their holds. -/
theorem State.dropAll_releases (s t : State) (gone : List (Port × Entry))
    (hl : t.lines = (s.dropAll (heldBy gone)).lines) (ho : t.lineLru = (s.dropAll (heldBy gone)).lineLru) :
    (∀ n : Fin 64, t.lines[n] = s.lines[n].released gone n) ∧ (s.lineLru.Nodup → s.lruReleased t gone []) := by
  have key : ∀ n : Fin 64, (s.dropAll (heldBy gone)).lines[n] = s.lines[n].released gone n := fun n => by
    rw [State.dropAll_line, Line.dropped_heldBy]
  refine ⟨fun n => by rw [← key n]; exact congrArg (·[n]) hl, fun hd => ?_⟩
  obtain ⟨front, fd, fm, fl⟩ := (State.dropAll_into hd (heldBy gone) s (State.ReleasedInto.refl s)).order
  refine ⟨front, fd, fun n => ?_, ?_⟩
  · rw [fm]; simp only [State.lostMark, key]; simp
  · rw [ho, fl]; congr 1; refine List.filter_congr fun n _ => ?_
    simp only [State.lostMark, State.wentFree, key]; simp

theorem State.detach_releases (s : State) (p : Port) (e : Entry) :
    (∀ n : Fin 64, (s.detach p e false).lines[n] = s.lines[n].released [(p, e)] n) ∧
    (s.lineLru.Nodup → s.lruReleased (s.detach p e false) [(p, e)] []) := by
  refine State.dropAll_releases _ _ _ ?_ ?_ <;> rw [State.detach_eq_dropAll] <;> simp [heldBy]

theorem State.emptyQueue_releases (s : State) (p : Port) :
    (∀ n : Fin 64, (s.emptyQueue p).lines[n] = s.lines[n].released ((s.port p).queue.map fun e => (p, e)) n) ∧
    (s.lineLru.Nodup → s.lruReleased (s.emptyQueue p) ((s.port p).queue.map fun e => (p, e)) []) := by
  refine State.dropAll_releases _ _ _ ?_ ?_ <;> unfold State.emptyQueue <;> rw [State.foldl_detach_eq_dropAll] <;> cases p <;> rfl

/-- What a list of given-up holds does to the lines and the LRU order depends on nothing else. -/
theorem State.dropAll_congr (os : List (Port × Nat × SegHold)) :
    ∀ s t : State, s.lines = t.lines → s.lineLru = t.lineLru →
      (s.dropAll os).lines = (t.dropAll os).lines ∧ (s.dropAll os).lineLru = (t.dropAll os).lineLru := by
  induction os with
  | nil => exact fun s t h h' => ⟨h, h'⟩
  | cons o os ih =>
    intro s t h h'
    have : (s.dropHold o.1 o.2.1 false o.2.2).lines = (t.dropHold o.1 o.2.1 false o.2.2).lines ∧
        (s.dropHold o.1 o.2.1 false o.2.2).lineLru = (t.dropHold o.1 o.2.1 false o.2.2).lineLru := by
      unfold State.dropHold
      split
      · unfold State.releasePin; rw [h]; dsimp only
        split <;> (repeat' split) <;>
          simp only [State.modLine, State.freeLine, State.leaveLru, State.demoteLine, h, h', and_self]
      · simp only [State.leaveWaiters, State.modLine, h, h', and_self]
      · exact ⟨h, h'⟩
    exact ih _ _ this.1 this.2

theorem State.dropAll_portB (os : List (Port × Nat × SegHold)) : ∀ s : State, (s.dropAll os).portB = s.portB := by
  induction os with
  | nil => exact fun s => rfl
  | cons o os ih =>
    intro s
    refine (ih _).trans ?_
    simp

theorem State.endReads_releases (s : State) (q : Entry → Bool) (x : RespStatus) :
    (∀ n : Fin 64, (s.endReads q x).lines[n] = s.lines[n].released (s.undecidedReads q) n) ∧
    (s.lineLru.Nodup → s.lruReleased (s.endReads q x) (s.undecidedReads q) []) := by
  let a := (s.portA.queue.filter fun e => e.status.isNone && q e).map fun e => (Port.a, e)
  let b := (s.portB.queue.filter fun e => e.status.isNone && q e).map fun e => (Port.b, e)
  have hb : (s.endReadsOn .a q x).portB = s.portB := by
    unfold State.endReadsOn; dsimp only; rw [State.foldl_detach_eq_dropAll]; exact State.dropAll_portB _ _
  have ha : (s.endReadsOn .a q x).lines = (s.dropAll (heldBy a)).lines ∧
      (s.endReadsOn .a q x).lineLru = (s.dropAll (heldBy a)).lineLru := by
    unfold State.endReadsOn; dsimp only; rw [State.foldl_detach_eq_dropAll]; exact ⟨rfl, rfl⟩
  have hab : ∀ t : State, t.portB = s.portB → (t.endReadsOn .b q x).lines = (t.dropAll (heldBy b)).lines ∧
      (t.endReadsOn .b q x).lineLru = (t.dropAll (heldBy b)).lineLru := by
    intro t ht
    unfold State.endReadsOn; dsimp only [State.port]; rw [State.foldl_detach_eq_dropAll, ht]; exact ⟨rfl, rfl⟩
  have c := State.dropAll_congr (heldBy b) _ _ ha.1 ha.2
  have e : s.dropAll (heldBy (s.undecidedReads q)) = (s.dropAll (heldBy a)).dropAll (heldBy b) := by
    rw [← State.dropAll_append, ← heldBy_append]; rfl
  refine State.dropAll_releases _ _ _ ?_ ?_ <;> rw [e]
  · exact (hab _ hb).1.trans c.1
  · exact (hab _ hb).2.trans c.2

end Sys2Proof.Machine
end

