-- ==== Sys2Proof/Laws/Walk.lean ====
section
/-! SUPPORT. Laws/Walk.lean: what entry processing (`walkEntries`) goes through, in the terms of `WalkPasses`. -/

namespace Sys2Proof.Machine

/-- The state with the images `ims` in its tables and `stack` as its walk stack. -/
def State.passed (s : State) (ims : List (Image × List Digest)) (stack : List Frame) : State :=
  { s with
    images := s.images ++ ims.map (·.1)
    store := s.store ++ ims.flatMap fun x => x.2.zipIdx.map fun d => ⟨x.1.index, d.2, d.1, .good⟩
    segMap := s.segMap ++ ims.map fun x => List.replicate x.1.segments .unverified
    manifest := { s.manifest with stack := stack } }

/-- Going through entries takes one step for each accepted IMAGE entry and one for each frame popped. -/
theorem State.walkEntries_passes {f : FuseImage} {src : Source} {images : List Image} {stored : Nat} {stack stack' : List Frame}
    {ims : List (Image × List Digest)} (h : WalkPasses f src images stored stack ims stack') :
    ∀ (n : Nat) (s : State), s.images = images → s.store.length = stored → s.manifest.stack = stack →
      stack'.length ≤ stack.length ∧ (ims.length + (stack.length - stack'.length) ≤ n →
        State.walkEntries f src n s =
          State.walkEntries f src (n - ims.length - (stack.length - stack'.length)) (s.passed ims stack')) := by
  induction h with
  | here images stored stack =>
    rintro n s rfl rfl rfl
    simp [State.passed]
  | @image images stored top rest stack im ds ims hn hc hj hw ih =>
    rintro n s rfl rfl hs
    have step : s.walkStep f src = .more (s.passed [(im, ds)] ({ top with next := top.next + 1 } :: rest)) := by
      unfold State.walkStep
      rw [hs]
      simp only [headerEntryCount, Nat.not_le.mpr hn, if_false, hc, hj]
      simp [State.passed, State.appendImage, State.modManifest]
    obtain ⟨hl, hi⟩ := ih (n - 1) (s.passed [(im, ds)] ({ top with next := top.next + 1 } :: rest)) rfl
      (by simp [State.passed]) rfl
    refine ⟨by simpa using hl, fun hle => ?_⟩
    obtain ⟨m, rfl⟩ : ∃ m, n = m + 1 := ⟨n - 1, by simp at hle; omega⟩
    rw [State.walkEntries, step]
    simp only [Nat.add_sub_cancel] at hi
    dsimp only
    rw [hi (by simp at hle ⊢; omega)]
    congr 1
    · simp
    · simp [State.passed]
  | @pop images stored top parent below stack ims hn hw ih =>
    rintro n s rfl rfl hs
    have step : s.walkStep f src = .more (s.passed [] ({ parent with next := parent.next + 1 } :: below)) := by
      unfold State.walkStep
      rw [hs]
      simp [headerEntryCount, hn, State.passed, State.modManifest]
    obtain ⟨hl, hi⟩ := ih (n - 1) (s.passed [] ({ parent with next := parent.next + 1 } :: below)) (by simp [State.passed])
      (by simp [State.passed]) rfl
    refine ⟨by simp at hl ⊢; omega, fun hle => ?_⟩
    obtain ⟨m, rfl⟩ : ∃ m, n = m + 1 := ⟨n - 1, by simp at hle hl; omega⟩
    rw [State.walkEntries, step]
    simp only [Nat.add_sub_cancel] at hi
    dsimp only
    rw [hi (by simp at hle hl ⊢; omega)]
    congr 1
    · simp at hl ⊢; omega
    · simp [State.passed]

/-- A walk of at most three frames and 48 IMAGE entries leaves fuel for the step after them. -/
theorem State.walkEntries_reaches {f : FuseImage} {src : Source} {stack stack' : List Frame} {ims : List (Image × List Digest)}
    {s : State} (h : WalkPasses f src s.images s.store.length stack ims stack') (hs : s.manifest.stack = stack)
    (hd : stack.length ≤ 3) (hi : ims.length ≤ 48) :
    ∃ n, State.walkEntries f src 64 s = State.walkEntries f src (n + 1) (s.passed ims stack') := by
  obtain ⟨-, key⟩ := State.walkEntries_passes h 64 s rfl rfl hs
  exact ⟨64 - ims.length - (stack.length - stack'.length) - 1, by rw [key (by omega)]; congr 1; omega⟩

/-- What the completion of a walk does to a state whose tables have taken the images `ims` of `s` (R37). -/
theorem State.completeWalk_completes (s : State) (src : Source) (b : Bytes) (ims : List (Image × List Digest))
    (stack : List Frame) :
    WalkCompletes s src b ims (({ s with manifest := { s.manifest with signatureJob := none } } : State).passed ims stack
      |>.completeWalk src b) where
  images := by simp [State.completeWalk, State.passed, conditionsHold, State.raise]
  store := by simp [State.completeWalk, State.passed, State.raise]
  segments := by simp [State.completeWalk, State.passed, State.raise]
  verifier := by
    rcases src with b | _ <;> try cases b
    all_goals simp [State.completeWalk, State.passed, State.raise, ManifestUnit.setError, headerLevel, headerKeySlot]
  codes x := by
    rcases src with b | _ <;> try cases b
    all_goals rcases x with b | _ <;> try cases b
    all_goals simp [State.completeWalk, State.passed, State.raise, ManifestUnit.setError, ManifestUnit.errorOf]
  options := by simp [State.completeWalk, State.passed, State.raise, headerDebounce]
  rescan := by simp [State.completeWalk, State.passed, State.raise, headerRescanInterval]; rfl
  sweep := by simp [State.completeWalk, State.passed, State.raise]
  raised := by
    unfold State.completeWalk
    dsimp only
    generalize hu : State.raise _ .walkDone = u
    have h := u.judgeReleases.judgePermit_service
    simp only [State.judgeReleases_frame] at h
    subst hu
    rcases h with h | h <;> rw [h] <;>
      simp [State.passed, ServicePort.flag, ServicePort.setFlag, oneHot, Event.bit]
  permit := by
    unfold State.completeWalk
    dsimp only
    generalize hu : State.raise _ .walkDone = u
    have h := u.judgeReleases.judgePermit_follows
    simp only [State.judgeReleases_frame] at h
    subst hu
    exact h
  ports p := by
    unfold State.completeWalk
    dsimp only
    generalize hu : State.raise _ .walkDone = u
    have hs : s.port p = u.port p := by subst hu; rfl
    have hp : u.judgeReleases.judgePermit.port p = u.judgeReleases.port p := by cases p <;> simp [State.port]
    have h := u.judgeReleases_judged p
    unfold PortJudged at h ⊢
    have hc : u.judgeReleases.judgePermit.releaseCondition p = u.judgeReleases.releaseCondition p := by
      simp [State.releaseCondition, State.isServing, hp]
    rw [hs, hp, hc]
    refine ⟨h, ?_⟩
    rw [u.judgeReleases_port]
    split <;> rfl
  rest := by
    unfold State.completeWalk
    dsimp only
    generalize hu : State.raise _ .walkDone = u
    have f := u.judgeReleases.judgePermit_frame
    have g := u.judgeReleases_frame
    generalize u.judgeReleases.judgePermit = t at f
    generalize u.judgeReleases = v at f g
    subst hu
    cases t
    simp_all [State.passed, State.raise]

end Sys2Proof.Machine
end

