-- ==== Sys2Proof/WellFormed.lean ====
section
/-! DEFINITION. WellFormed.lean: the checks on a command's operands alone. A command that fails its check is one the outside
world cannot send. -/

namespace Sys2Proof

/-- A command whose operands have the form its row gives them: a header read returns 256 bytes (R20), a part of a manifest
1 to 4,096 bytes (R22), a unit read 4,096 bytes (R104); a COLLECT frame clocks at least its command byte (R125); a malformed
frame is one that R125 ignores; a BAD_COMMAND code is neither fuse command's (R198). -/
def Instr.wellFormed : Instr → Bool
  | .headerReadDone data => data.length == Config.headerBytes
  | .manifestReadDone data => 1 ≤ data.length && data.length ≤ Config.segmentBytes
  | .flashReadDone data => data.length == Config.segmentBytes
  | .collect _ clocked => 1 ≤ clocked
  | .malformedFrame _ received => (Machine.parseFrame (Machine.wholeBytes received)).isNone
  | .badCommand code => code != 0xA1 && code != 0xA2
  | .powerOn _ | .powerLoss | .resetNAssert | .resetNRelease _ | .flashReadyPollDone _ | .flashReadyLimitExpiry => true
  | .flashResetSettleExpiry | .fuseLoadDone | .selfCheckJobDone _ _ | .signatureDone _ | .flashGrant => true
  | .statusReadDone _ | .programLimitExpiry | .eraseLimitExpiry | .digestBlockHashDone | .segmentHashDone => true
  | .switchingTeardown | .rescanHashDone | .rescanTimerExpiry | .optionSample _ | .holdTimerExpiry _ => true
  | .riseDelayExpiry | .fallDelayExpiry | .read _ _ _ _ _ | .translate _ _ _ | .write _ _ _ _ | .erase _ _ _ => true
  | .status _ | .reboot _ | .permitOn _ | .permitOff _ | .collectWindowExpiry _ | .setPointer _ _ => true
  | .readTransaction _ _ | .imageSelectWrite _ | .clearWrite _ | .eventMaskWrite _ | .periodWrite _ _ => true
  | .registerWrite _ | .floorAdvance | .revokeSlot | .fuseBurnCompletion _ | .restartSequence | .serviceRestart => true
  | .csNFall _ => true

end Sys2Proof
end

