-- ==== Sys2Proof/Tests/Slice0.lean ====
section
/-! SUPPORT. Tests/Slice0.lean: small tests of single commands, with expected results worked out by hand from the rules, and for
each statement a concrete state that meets its hypotheses. -/

open Sys2Proof Sys2Proof.Machine

namespace Sys2Proof.Tests

-- Each theorem here is one evaluation by the kernel: they run one after another.
set_option Elab.async false

/-! ## Well-formedness: each check refuses an ill-formed command -/

theorem test_wf_header_length : (Instr.headerReadDone (zeros 255)).wellFormed = false ∧
    (Instr.headerReadDone (zeros 256)).wellFormed = true := by decide +kernel
theorem test_wf_manifest_part : (Instr.manifestReadDone []).wellFormed = false ∧
    (Instr.manifestReadDone (zeros 4097)).wellFormed = false ∧ (Instr.manifestReadDone (zeros 4096)).wellFormed = true := by
  decide +kernel
theorem test_wf_unit_length : (Instr.flashReadDone (zeros 4095)).wellFormed = false ∧
    (Instr.flashReadDone (zeros 4096)).wellFormed = true := by decide +kernel
theorem test_wf_collect_clocked : (Instr.collect .a 0).wellFormed = false ∧ (Instr.collect .a 1).wellFormed = true := by decide
theorem test_wf_malformed_frame : (Instr.malformedFrame .a (bitsOf [0x10])).wellFormed = false ∧
    (Instr.malformedFrame .a (bitsOf [0x05])).wellFormed = true := by decide
theorem test_wf_bad_command : (Instr.badCommand 0xA1).wellFormed = false ∧ (Instr.badCommand 0xA2).wellFormed = false ∧
    (Instr.badCommand 0xA3).wellFormed = true := by decide

/-! ## Bytes: frames, digests, and words of the table -/

/-- No row of the table has bits, so no word spells a command. -/
theorem test_no_word_spells : decodeTableWord 8 0x10 = none ∧ State.reset.withFetchWord 8 0x10 = State.reset := ⟨rfl, rfl⟩
theorem test_frame_read : frameCommand .a (bitsOf [0x01, 0x5A, 0x00, 0x10, 0x20, 0x30, 0x01, 0x00, 0x03, 0xEE]) =
    .read .a 0x5A 0x00102030 0x0100 0x03 := by decide
theorem test_frame_translate : frameCommand .b (bitsOf [0x02, 0x07, 0x01, 0x02, 0x03, 0x04]) =
    .translate .b 0x07 0x01020304 := by decide
theorem test_frame_write : frameCommand .a (bitsOf [0x03, 0x09, 0x00, 0x20, 0x00, 0x80, 0xAA, 0xBB]) =
    .write .a 0x09 0x00200080 [0xAA, 0xBB] := by decide
theorem test_frame_erase : frameCommand .a (bitsOf [0x04, 0x0A, 0x00, 0x70, 0x00, 0x00]) = .erase .a 0x0A 0x00700000 := by
  decide
theorem test_frames_of_one_byte : frameCommand .b (bitsOf [0x10, 0x00, 0x00]) = .collect .b 3 ∧
    frameCommand .a (bitsOf [0x11]) = .status .a ∧ frameCommand .a (bitsOf [0x12]) = .reboot .a ∧
    frameCommand .b (bitsOf [0x13]) = .permitOn .b ∧ frameCommand .b (bitsOf [0x14]) = .permitOff .b := by decide
/-- STATUS is 0x11: its bits as they are clocked, the most significant first, and three bits of a partial byte. -/
theorem test_frame_bits : frameCommand .a [false, false, false, true, false, false, false, true, true, true, true] =
    .status .a := by decide
theorem test_frame_malformed : frameCommand .a [] = .malformedFrame .a [] ∧
    frameCommand .a [false, false, false, true, false, false, false] =
      .malformedFrame .a [false, false, false, true, false, false, false] ∧
    frameCommand .a (bitsOf [0x01, 0x5A, 0x00]) = .malformedFrame .a (bitsOf [0x01, 0x5A, 0x00]) ∧
    frameCommand .a (bitsOf [0x15]) = .malformedFrame .a (bitsOf [0x15]) := by decide
/-- The digest of the three bytes "abc" (FIPS 180-4's worked example). -/
theorem test_sha256_abc : sha256 [0x61, 0x62, 0x63] =
    [0xba, 0x78, 0x16, 0xbf, 0x8f, 0x01, 0xcf, 0xea, 0x41, 0x41, 0x40, 0xde, 0x5d, 0xae, 0x22, 0x23,
     0xb0, 0x03, 0x61, 0xa3, 0x96, 0x17, 0x7a, 0x9c, 0xb4, 0x10, 0xff, 0x61, 0xf2, 0x00, 0x15, 0xad] := by decide +kernel

/-- The `k` bytes of a number, most significant first. -/
def numBytes (n k : Nat) : Bytes := (List.range k).map fun i => BitVec.ofNat 8 (n / 256 ^ (k - 1 - i))

/-- A job whose signature is good: made outside the model, with the curve's arithmetic in Python, for an empty message. -/
def goodJob : SignatureJob where
  message := []
  publicKey := numBytes (0x5cda8f705838c6638e54a5090717d1c88ebeeb1ad4318dc3ed3f2fb5c167739f * 2 ^ 256 +
    0x05da0dc6d29d169197d9d8be1c7d0e6e5d079a070eb9890a48bef81eba5c873e) 64
  signature := numBytes (0xe7acf4c3e7af0a905105825659269fd7721430a2fdc5600ced282370a8fd0143 * 2 ^ 256 +
    0x0731728c09ba9bee62e44dac428afdc2b83f2988f0abaa610b50ab78c276213a) 64

/-- The same key and signature with another message. -/
def badJob : SignatureJob := { goodJob with message := [0x00] }

theorem test_signature_good : goodJob.passes = true := by decide +kernel
theorem test_signature_bad : badJob.passes = false := by decide +kernel

/-! ## A small part: two images, one port released -/

/-- What a field of a next state is after one command. -/
def after {α : Type} (c : Instr) (s : State) (f : State → α) : Option α :=
  match exec c s with
  | .next t => some (f t)
  | _ => none

/-- A fuse image: 16 MiB of flash, 2 MiB of recovery, auto-recovery, floor 1, key slot 1 programmed. -/
def fuses : FuseImage where
  primary := (Vector.replicate 4 ⟨false, []⟩).set 1 ⟨true, sha256 (zeros 64)⟩
  recovery := ⟨false, []⟩
  revoked := (Vector.replicate 4 false).set 3 true
  floor := (Vector.replicate 32 false).set 0 true
  flashMiB := 16
  recoveryMiB := 2
  autoRecovery := true
  lineLevel := ⟨.high, .low, .high⟩
  tripAction := ⟨.inactive, .float, .inactive⟩

/-- An image of two segments on both ports at port address 0, in its block digest store entry 0. -/
def image0 : Image where
  index := 0
  name := [0x45, 0x4E, 0x47, 0x20, 0x20, 0x20, 0x20, 0x20]
  owner := .both
  segments := 2
  windowBase := 0
  windowMode := .linear
  windowSpan := 8192
  releaseMode := .eager
  readAhead := 0
  flashBase := 0x10000
  digestBase := 0x20000
  conditions := [⟨0, .clear⟩]
  firstStore := 0
  blockCount := 1
  included := true
  state := .pending
  verified := 0
  failure := none

/-- The same image in a MIRROR window of 16,384 bytes at 65,536, on Port B alone, LAZY. -/
def image1 : Image := { image0 with
  index := 1, owner := .b, windowBase := 65536, windowMode := .mirror, windowSpan := 16384, releaseMode := .lazy, firstStore := 1 }

/-- A RELEASED port with its hold served. -/
def released : PortUnit := { PortUnit.cleared with state := .released, holdServed := true }

/-- Delays of 1, 0, 2 units up and 3, 0, 0 down. -/
def delays : Delays := ⟨⟨1, 0, 2⟩, ⟨3, 0, 0⟩⟩

/-- The part SERVING from bank 0 with root level 3 and key slot 1, both ports RELEASED, the flash IDLE. -/
def serving : State := { State.reset with
  fuseImage := some fuses
  manifest := { ManifestUnit.cleared with state := .serving, summary := some ⟨.bank .bank0, some ⟨3, 1⟩⟩ }
  images := [image0, image1]
  store := [⟨0, 0, [], .good⟩, ⟨1, 0, [], .good⟩]
  segMap := [[.unverified, .unverified], [.unverified, .unverified]]
  flash := ⟨.idle, []⟩
  portA := released
  portB := released
  options := { OptionBlock.cleared with sampled := true, debounce := 2 }
  permit := { PermitController.cleared with lines := ⟨.inactive, .inactive, .inactive⟩, delays := some delays }
  rescan := { RescanUnit.cleared with interval := some 50, running := true } }

/-- The part in a step of STARTING with its fuse image held. -/
def starting (x : StartStep) (op : FlashOp) : State := { State.reset with
  fuseImage := some fuses
  manifest := { ManifestUnit.cleared with startStep := some x }
  flash := ⟨op, []⟩ }

/-- A frame running on a port, bound to the entry named. -/
def running (bound : Option Nat) : SpiFrame := ⟨true, 0, bound, false, none⟩

/-- A READ entry of image 0 for its whole segment 0, with the holds and status given. -/
def readEntry (id : Nat) (holds : List SegHold) (x : Option RespStatus) : Entry :=
  ⟨id, 0x21, .read ⟨0, 4096, false, some 0, 4096, false, [⟨0, 0, 4096⟩], holds⟩, x, false⟩

/-- A line of image 0's segment 0. -/
def line0 (x : LineState) (pins : Nat) (ws : List Waiter) : Line := ⟨x, some ⟨0, 0⟩, [], pins, ws, some .demand, false⟩

/-- The slot that holds image 0's block, with the digests of its segments 0 and 1. -/
def slot0 : Slot := ⟨.valid, some ⟨0, 0⟩, sha256 [] ++ sha256 [], 1⟩

/-! ## Power and STARTING -/

theorem test_power_on : after (.powerOn 2) { State.reset with supplies := false }
    (fun t => (t.live, t.manifest.startStep, t.service.straps)) = some (true, some .flashWait, 2) := by decide +kernel
theorem test_power_loss : after .powerLoss { serving with service := { serving.service with flags := 0x10 } }
    (fun t => (t.live, t.service.flags, t.svcIntLow, t.images.length)) = some (false, 0, false, 0) := by decide +kernel
theorem test_power_loss_cuts_burn : after .powerLoss { serving with fuseController := .burningFloor 1 3 }
    (fun t => (t.fuseArray.floor[1], t.fuseController)) = some (.unsettled 0, .idle) := by decide +kernel
theorem test_reset_assert : after .resetNAssert serving (fun t => (t.resetN, t.live, t.permit.lines.pl0)) =
    some (false, false, .released) := by decide +kernel
theorem test_reset_release : after (.resetNRelease 1) { State.reset with resetN := false }
    (fun t => (t.resetN, t.service.straps, t.flash.op)) = some (true, 1, .readyWait) := by decide +kernel
theorem test_ready_poll : after (.flashReadyPollDone 0) State.reset (fun t => (t.manifest.startStep, t.flash.op)) =
    some (some .fuseLoad, .idle) := by decide +kernel
theorem test_ready_poll_busy : after (.flashReadyPollDone 1) State.reset (fun t => (t.manifest.startStep, t.flash.op)) =
    some (some .flashWait, .readyWait) := by decide +kernel
theorem test_ready_limit : after .flashReadyLimitExpiry State.reset (fun t => t.flash.sent.map (·.command)) =
    some [0x66, 0x99] := by decide +kernel
theorem test_settle : after .flashResetSettleExpiry (starting .flashWait (.resetting .fuseLoad))
    (fun t => (t.manifest.startStep, t.flash.op)) = some (some .fuseLoad, .idle) := by decide +kernel
/-- Fuses of size 1 of 2 and five recovery fuses: 32 MiB and 5 MiB. -/
theorem test_fuse_load : after .fuseLoadDone { starting .fuseLoad .idle with fuseArray := { FuseArray.unburned with
      sizeFirst := true, recoverySize := #v[true, true, true, true, true, false, false, false] } }
    (fun t => t.fuseImage.map fun f => (f.flashMiB, f.recoveryMiB, f.bankBytes)) =
    some (some (32, 5, 27 * 524288)) := by decide +kernel
theorem test_self_check_locks : after (.selfCheckJobDone .signature false) (starting (.selfCheck true 0) .idle)
    (fun t => (t.manifest.state, t.manifest.lockedCause)) = some (.locked, some .selftest) := by decide +kernel
theorem test_self_check_ends : after (.selfCheckJobDone .signature true) (starting (.selfCheck true 1) .idle)
    (fun t => (t.manifest.startStep, t.manifest.walkRead)) = some (some (.headers .bank0), some ⟨0, 256⟩) := by decide +kernel

/-! ## The walk -/

/-- The header of a manifest: marker, kind, slot, count, total length, level, debounce count, and no other field set. -/
def header (kind slot count level debounce : Byte) (length : Bytes) : Bytes :=
  [0x43, 0x4A, 0x4D, 0x46, kind, slot, count, 0] ++ length ++ [level, debounce] ++ zeros 244

theorem test_header_bank0 : after (.headerReadDone (header 1 1 1 9 3 [0x24, 0x01]))
      (starting (.headers .bank0) (.walkRead ⟨0, 256⟩))
    (fun t => (t.manifest.levelBank0, t.manifest.startStep, t.manifest.walkRead)) =
    some (some 9, some (.headers .bank1), some ⟨7 * 1048576, 256⟩) := by decide +kernel
/-- Two good headers, bank 1 at the higher level: bank 1 is walked first and bank 0 is listed after it. -/
theorem test_header_order : after (.headerReadDone (header 1 1 1 9 3 [0x24, 0x01]))
      { starting (.headers .bank1) (.walkRead ⟨0, 256⟩) with
        manifest := { ManifestUnit.cleared with startStep := some (.headers .bank1), levelBank0 := some 8 } }
    (fun t => (t.manifest.current, t.manifest.candidates)) = some (some (.bank .bank1), [.bank0]) := by decide +kernel

/-- The part WALKING bank 0, its stack and the flash operation given. -/
def walking (stack : List Frame) (op : FlashOp) (job : Option SignatureJob) : State := { State.reset with
  fuseImage := some fuses
  manifest := { ManifestUnit.cleared with
    state := .walking, current := some (.bank .bank0), stack := stack, signatureJob := job }
  flash := ⟨op, []⟩ }

/-- Frame 0 of a root manifest with the bytes given. -/
def frame0 (b : Bytes) : Frame := ⟨b, 0, .root, 0, none, 0⟩

/-- A RECOVERY manifest at a bank's base ends the candidate, and with no other bank the recovery manifest is walked. -/
theorem test_manifest_bad_kind : after (.manifestReadDone (header 2 1 1 9 3 [0x44, 0x01]))
      (walking [frame0 []] (.walkRead ⟨0, 256⟩) none)
    (fun t => (t.manifest.errorBank0, t.manifest.current)) = some (.badKind, some .recovery) := by decide +kernel

/-- An IMAGE entry of 64 bytes: LINEAR, no condition, one block digest of zeros. -/
def imageEntry (owner mode release ahead : Byte) (n : Bytes) (flash digests base : Bytes) : Bytes :=
  [1, 0, 64, 0] ++ [0x45, 0x4E, 0x47, 0x20, 0x20, 0x20, 0x20, 0x20] ++ [owner, mode, release, ahead] ++ n ++ [0, 0] ++
    flash ++ digests ++ base ++ zeros 32

/-- A whole root with one good IMAGE entry of two segments at flash offset 0x10000, digests at 0x20000, window base 0. -/
def root : Bytes := header 1 1 1 9 3 [0x40, 0x01] ++
  imageEntry 3 1 2 0 [2, 0] [0, 0, 1, 0] [0, 0, 2, 0] [0, 0, 0, 0]

/-- A root whose total length is 324 = 256 + 68: its first part asks for the 68 bytes left. A root of 320 bytes with its last 64:
the job leaves out the signature field, so it is of 128 + 128 bytes. -/
theorem test_manifest_parts : after (.manifestReadDone (header 1 1 1 9 3 [0x44, 0x01]))
      (walking [frame0 []] (.walkRead ⟨0, 256⟩) none)
    (fun t => (t.manifest.walkRead, t.flash.op)) = some (some ⟨256, 68⟩, .idle) ∧
    after (.manifestReadDone (root.drop 256)) (walking [frame0 (root.take 256)] (.walkRead ⟨256, 64⟩) none)
    (fun t => t.manifest.signatureJob.map fun j => (j.message.length, j.message.drop 128, j.signature.length)) =
    some (some (256, root.drop 192, 64)) := by decide +kernel
theorem test_signature_completes : after (.signatureDone true) (walking [frame0 root] .idle (some goodJob))
    (fun t => (t.manifest.state, t.images.map (·.flashBase), t.segMap, t.service.flags)) =
    some (.serving, [0x10000], [[.unverified, .unverified]], 0x01) := by decide +kernel
/-- Level 0 against a floor of 1; a job that fails; and the verdict that its job does not have, which cannot come. -/
theorem test_signature_ends_the_candidate : after (.signatureDone true)
      (walking [frame0 (header 1 1 1 0 3 [0x40, 0x01])] .idle (some goodJob))
      (fun t => (t.manifest.errorBank0, t.manifest.current)) = some (.belowFloor, some .recovery) ∧
    after (.signatureDone false) (walking [frame0 root] .idle (some badJob))
      (fun t => t.manifest.errorBank0) = some .badSignature ∧
    after (.signatureDone true) (walking [frame0 root] .idle (some badJob))
      (fun t => (t.manifest.errorBank0, t.manifest.state)) = some (.notTried, .walking) := by decide +kernel
theorem test_teardown : after .switchingTeardown { serving with manifest := { serving.manifest with state := .switching } }
    (fun t => (t.images.length, t.manifest.current, t.manifest.walkRead)) =
    some (0, some .recovery, some ⟨14 * 1048576, 256⟩) := by decide +kernel

/-! ## Flash -/

/-- A demand for image 0's segment 0 with no slot: the digest block at 0x20000 is read first. -/
theorem test_grant_block : after .flashGrant { serving with
      portA := { released with queue := [readEntry 0 [⟨0, .outstanding⟩] none] } }
    (fun t => (t.flash, t.arbiter.turn)) = some (⟨.unitRead ⟨.slot 0 ⟨0, 0⟩, false⟩ 0x20000,
      [⟨0x6C, [0x00, 0x02, 0x00, 0x00], 8, .fio0to3, []⟩]⟩, .b) := by decide +kernel
/-- The same with the block in slot 0: segment 0 at 0x10000 is read into line 0 and the slot is held. -/
theorem test_grant_fill : after .flashGrant { serving with
      portA := { released with queue := [readEntry 0 [⟨0, .outstanding⟩] none] }, slots := serving.slots.set 0 slot0, slotLru := [0] }
    (fun t => (t.flash.op, t.lines[0].state, t.slots[0].hold)) =
    some (.unitRead ⟨.line 0 ⟨0, 0⟩ 0, false⟩ 0x10000, .filling, 2) := by decide +kernel
theorem test_read_done : after (.flashReadDone (zeros 4096)) { serving with
      flash := ⟨.unitRead ⟨.slot 0 ⟨0, 0⟩, false⟩ 0x20000, []⟩
      slots := serving.slots.set 0 ⟨.filling, some ⟨0, 0⟩, [], 0⟩ }
    (fun t => (t.flash.op, t.engine.hashing, t.slots[0].state)) =
    some (.idle, some ⟨.slot 0 ⟨0, 0⟩, false⟩, .hashing) := by decide +kernel
/-- A WRITE of Port A, granted, whose operation is in progress. -/
def writing (op : FlashOp) : State := { serving with
  flash := ⟨op, []⟩, portA := { released with queue := [⟨5, 0x11, .write 0x700000 [], none, true⟩] } }
theorem test_write_done : after (.statusReadDone 0x00) (writing (.programming 0x700000 5))
    (fun t => (t.flash.op, t.portA.queue.map (·.status))) = some (.idle, [some .done]) := by decide +kernel
theorem test_write_fault : after (.statusReadDone 0x20) (writing (.programming 0x700000 5))
    (fun t => (t.flash.op, t.portA.queue.map (·.status))) = some (.idle, [some .writeFault]) := by decide +kernel
theorem test_program_limit : after .programLimitExpiry (writing (.programming 0x700000 5))
    (fun t => (t.flash.op, t.portA.queue.map (·.status))) = some (.resetting .idle, [some .timeout]) := by decide +kernel
theorem test_erase_limit : after .eraseLimitExpiry (writing (.erasing 0x700000 5))
    (fun t => (t.flash.op, t.portA.queue.map (·.status))) = some (.resetting .idle, [some .timeout]) := by decide +kernel

/-! ## Verification -/

/-- Line 0 of segment 0 is being hashed against slot 0, with one READ of Port A waiting. -/
def hashingLine (data digests : Bytes) : State := { serving with
  engine := ⟨some ⟨.line 0 ⟨0, 0⟩ 0, false⟩, none⟩
  lines := serving.lines.set 0 { line0 .hashing 0 [⟨.a, 5, [⟨0, 0, 4096⟩]⟩] with data := data }
  slots := serving.slots.set 0 { slot0 with data := digests }
  slotLru := [0]
  portA := { released with queue := [readEntry 5 [⟨0, .waiting 0⟩] none] } }

theorem test_segment_match : after .segmentHashDone (hashingLine [] (sha256 []))
    (fun t => (t.segState 0 0, t.lines[0].state, t.lines[0].pins, t.portA.queue.map (·.status))) =
    some (.verified, .valid, 1, [some .ok]) := by decide +kernel
theorem test_segment_mismatch : after .segmentHashDone (hashingLine [] (zeros 32))
    (fun t => (t.manifest.state, t.permit.cause, t.permit.lines, t.portA.queue.length)) =
    some (.switching, some ⟨0, .segment, 0⟩, ⟨.inactive, .released, .inactive⟩, 0) := by decide +kernel

/-- Slot 0 of image 0's block is being hashed against the store's digest. -/
def hashingSlot (digest : Digest) : State := { serving with
  engine := ⟨some ⟨.slot 0 ⟨0, 0⟩, false⟩, none⟩
  slots := serving.slots.set 0 ⟨.hashing, some ⟨0, 0⟩, [], 0⟩
  store := [⟨0, 0, digest, .good⟩, ⟨1, 0, [], .good⟩] }

theorem test_block_match : after .digestBlockHashDone (hashingSlot (sha256 []))
    (fun t => (t.slots[0].state, t.slotLru, t.engine.hashing)) = some (.valid, [0], none) := by decide +kernel
/-- With auto-recovery off the part keeps serving, the image FAILED with its block. -/
theorem test_block_mismatch : after .digestBlockHashDone
      { hashingSlot (zeros 32) with fuseImage := some { fuses with autoRecovery := false } }
    (fun t => (t.manifest.state, t.images.map (·.failure), t.store.map (·.state), t.permit.state)) =
    some (.serving, [some (.block 0), none], [.failed, .good], .tripped) := by decide +kernel

/-- The rescan buffer, of VERIFIED segment 0, is being hashed against slot 0; line 3 holds the segment. -/
def hashingBuffer (digests : Bytes) : State := { serving with
  engine := ⟨some ⟨.rescan ⟨0, 0⟩ 0, false⟩, none⟩
  images := [{ image0 with verified := 1 }, image1]
  segMap := [[.verified, .unverified], [.unverified, .unverified]]
  slots := serving.slots.set 0 { slot0 with data := digests }
  slotLru := [0]
  lines := serving.lines.set 3 (line0 .valid 0 [])
  lineLru := [3]
  rescan := { serving.rescan with buffer := .hashing, tag := some ⟨0, 0⟩, data := [], debt := 2 } }

theorem test_rescan_match : after .rescanHashDone (hashingBuffer (sha256 []))
    (fun t => (t.rescan.buffer, t.lines[3].state, t.segMap.head?, t.slots[0].hold)) =
    some (.empty, .valid, some [.verified, .unverified], 0) := by decide +kernel
theorem test_rescan_mismatch : after .rescanHashDone
      { hashingBuffer (zeros 32) with fuseImage := some { fuses with autoRecovery := false } }
    (fun t => (t.rescan.buffer, t.lines[3].state, t.segMap.head?, t.images.map (·.verified))) =
    some (.empty, .free, some [.failed, .unverified], [0, 0]) := by decide +kernel

/-! ## Timers, options and permit -/

theorem test_rescan_timer : after .rescanTimerExpiry serving (fun t => t.rescan.debt) = some 1 := by decide +kernel
theorem test_rescan_timer_full : after .rescanTimerExpiry { serving with rescan := { serving.rescan with debt := 8 } }
    (fun t => t.rescan.debt) = some 8 := by decide +kernel
/-- Debounce count 2: a first sample that differs counts, a second one changes the bit and excludes image 0. -/
theorem test_option_counts : after (.optionSample 0x01) serving (fun t => (t.options.word, t.options.counters[0])) =
    some (0x00, 1) := by decide +kernel
theorem test_option_changes : after (.optionSample 0x01)
      { serving with options := { serving.options with counters := serving.options.counters.set 0 1 } }
    (fun t => (t.options.word, t.images.map (·.included), t.service.flags)) = some (0x01, [false, false], 0x08) := by decide +kernel
/-- Port A owns an included EAGER image still PENDING; once it is COMPLETE the port is released. -/
theorem test_hold_waits : after (.holdTimerExpiry .a) { serving with portA := PortUnit.cleared }
    (fun t => (t.portA.state, t.portA.holdServed)) = some (.held, true) := by decide +kernel
theorem test_hold_releases : after (.holdTimerExpiry .a)
      { serving with portA := PortUnit.cleared, images := [{ image0 with state := .complete, verified := 2 }] }
    (fun t => t.portA.state) = some .released := by decide +kernel
/-- Everything COMPLETE and requested. -/
def eligible : State := { serving with
  images := [{ image0 with state := .complete, verified := 2 }], segMap := [[.verified, .verified]], permitRequest := true }
/-- PL1's delay is 0, so PL0's expiry makes PL0 and PL1 active and starts PL2's delay of 2. -/
theorem test_rise : after .riseDelayExpiry
      { eligible with permit := { serving.permit with state := .rising, timer := some ⟨.pl0, 1⟩ } }
    (fun t => (t.permit.lines, t.permit.timer)) = some (⟨.active, .active, .inactive⟩, some ⟨.pl2, 2⟩) := by decide +kernel
/-- PL0's fall delay is 3, so PL1's expiry starts it. -/
theorem test_fall : after .fallDelayExpiry { serving with permit := { serving.permit with
      state := .falling, lines := ⟨.active, .active, .inactive⟩, timer := some ⟨.pl1, 0⟩ } }
    (fun t => (t.permit.lines, t.permit.timer)) = some (⟨.active, .inactive, .inactive⟩, some ⟨.pl0, 3⟩) := by decide +kernel

/-! ## Frames -/

theorem test_fall_of_cs : after (.csNFall .b) { serving with permitRequest := true, portB := { released with
      queue := [⟨0, 1, .permitOn, some .badReq, false⟩], badFrame := true } }
    (fun t => t.portB.frame) = some (some ⟨true, 0xCB, some 0, false, none⟩) := by decide +kernel
/-- A READ across both segments with no line: two segments outstanding. -/
theorem test_read : after (.read .a 0x21 0x00000FFE 0x0004 0x00) serving (fun t => t.portA.queue.map (·.body)) =
    some [.read ⟨0xFFE, 4, false, some 0, 4, false, [⟨0, 0xFFE, 2⟩, ⟨1, 0, 2⟩],
      [⟨0, .outstanding⟩, ⟨1, .outstanding⟩]⟩] := by decide +kernel
/-- A READ of 0x2001 bytes from 0x1000 is clamped to the 4,096 bytes left of the LINEAR image. -/
theorem test_read_clamped : after (.read .a 0x21 0x00001000 0x2001 0x00) serving
    (fun t => t.portA.queue.map fun e => match e.body with | .read r => (r.delivered, r.short) | _ => (0, false)) =
    some [(4096, true)] := by decide +kernel
/-- Offset 0x2005 of the MIRROR window wraps to segment 0, offset 5. -/
theorem test_translate : after (.translate .b 0x07 0x00012005) serving (fun t => t.portB.queue.map (·.body)) =
    some [.translate 0x12005 (some ⟨1, true, 0, 5, .mirror, .unverified, .free⟩)] := by decide +kernel
theorem test_write_denied : after (.write .a 0x09 0x00000100 [0xAA]) serving (fun t => t.portA.queue.map (·.status)) =
    some [some .denied] := by decide +kernel
theorem test_write_past_page : after (.write .a 0x09 0x007000FF [0xAA, 0xBB]) serving (fun t => t.portA.queue.map (·.status)) =
    some [some .badReq] := by decide +kernel
theorem test_erase_bank1 : after (.erase .a 0x0A 0x00700000) serving (fun t => t.portA.queue.map (·.status)) =
    some [none] := by decide +kernel
theorem test_erase_port_b : after (.erase .b 0x0A 0x00700000) serving (fun t => t.portB.queue.map (·.status)) =
    some [some .badReq] := by decide +kernel
/-- A ready READ of segment 0 pinned on line 0, its response bound. -/
def ready : State := { serving with
  lines := serving.lines.set 0 { line0 .stale 1 [] with data := [0xA0, 0xA1, 0xA2] ++ zeros 4093 }
  portA := { released with
    queue := [⟨5, 0x21, .read ⟨1, 2, false, some 0, 2, false, [⟨0, 1, 2⟩], [⟨0, .pinned 0⟩]⟩, some .ok, false⟩]
    frame := some (running (some 5)) } }
theorem test_collect : after (.collect .a 8) ready (fun t => (t.portA.sent, t.portA.queue.length, t.lines[0].state)) =
    some (.bytes [0x00, 0x21, 0x00, 0x00, 0x02, 0xA1, 0xA2, 0x00], 0, .free) := by decide +kernel
theorem test_collect_unbound : after (.collect .b 6) serving (fun t => t.portB.sent) =
    some (.bytes [0x04, 0x00, 0x0F, 0x00, 0x00, 0x00]) := by decide +kernel
/-- OVERRUN was reported, DROPPED was set after the fall of CS_N. -/
theorem test_status : after (.status .a) { serving with portA := { released with
      overrun := true, dropped := true, frame := some ⟨true, 0x14, none, false, none⟩ } }
    (fun t => (t.portA.overrun, t.portA.dropped, t.portA.sent.byte 0, t.portA.sent.byte 9)) =
    some (false, true, some 0x14, some 0x00) := by decide +kernel
theorem test_reboot : after (.reboot .b) { eligible with permit := { serving.permit with
      state := .granted, lines := ⟨.active, .active, .active⟩ } }
    (fun t => (t.portB.state, t.permitRequest, t.permit.state, t.permit.lines)) =
    some (.rebooting, false, .falling, ⟨.active, .inactive, .inactive⟩) := by decide +kernel
theorem test_permit_on : after (.permitOn .b) { eligible with permitRequest := false }
    (fun t => (t.permitRequest, t.permit.state, t.permit.timer)) = some (true, .rising, some ⟨.pl0, 1⟩) := by decide +kernel
theorem test_permit_on_port_a : after (.permitOn .a) serving (fun t => t.portA.queue.map (·.status)) =
    some [some .badReq] := by decide +kernel
theorem test_permit_off : after (.permitOff .b) { eligible with permit := { serving.permit with
      state := .rising, timer := some ⟨.pl0, 1⟩ } }
    (fun t => (t.permit.state, t.permit.timer)) = some (.withheld, none) := by decide +kernel
theorem test_malformed : after (.malformedFrame .a (bitsOf [0x01, 0x22])) serving
    (fun t => (t.portA.badFrame, t.portA.sent)) = some (true, .bytes [0x04]) := by decide +kernel
/-- A restart cuts a STATUS frame short: of what it had been driven only the number of bytes is free. -/
theorem test_cut_frame : after (.status .a) { serving with portA := { PortUnit.cleared with
      frame := some ⟨false, 0x14, none, false, some (3, [])⟩ } } (fun t => (t.portA.frame, t.portA.sent)) =
    some (none, .untilCut 3 [0x14]) := by decide +kernel
/-- A port released by its 10 ms hold while supplies are good shows its line high, and low once they fail (log entry 33). -/
theorem test_reset_lines : serving.resetReleased .a = true ∧ after .powerLoss serving (·.resetReleased .a) = some false := by
  decide +kernel
theorem test_window_expiry : after (.collectWindowExpiry .a) { ready with portA := { ready.portA with frame := none } }
    (fun t => (t.portA.queue.length, t.portA.dropped, t.lines[0].state, t.service.flags)) =
    some (0, true, .free, 0x80) := by decide +kernel

/-! ## Service port and fuse commands -/

/-- A write transaction with the pointer at `p`. -/
def at' (p : BitVec 7) (s : State) : State := { s with service := { s.service with transaction := .writing, pointer := p } }

theorem test_set_pointer : after (.setPointer 0x58 (some 0x90)) serving
    (fun t => (t.service.pointer, t.service.autoIncrement, t.service.acked)) = some (0x10, true, true) := by decide +kernel
theorem test_other_address : after (.setPointer 0x59 (some 0x90)) serving
    (fun t => (t.service.pointer, t.service.acked)) = some (0x00, false) := by decide +kernel
/-- The address alone, sent as a repeated START after both bytes of the restart sequence: it is acknowledged, pointer and AI stay, and
the candidate is gone. -/
theorem test_write_of_no_byte :
    after (.setPointer 0x58 none) { serving with service := { serving.service with
      pointer := 0x7F, autoIncrement := true, transaction := .candidate 2, acked := false } }
    (fun t => (t.service.pointer, t.service.autoIncrement, t.service.acked, t.service.transaction)) =
      some (0x7F, true, true, .none) := by decide +kernel
/-- The identification record, read twice round its group of eight without AI. -/
theorem test_read_identification : after (.readTransaction (some 0x58) 9) { serving with
      service := { serving.service with pointer := 0x20 } }
    (fun t => (t.service.sent, t.service.pointer)) =
    some ([0x3D, 0x34, 0x20, 0x01, 0x3D, 0x34, 0x20, 0x01, 0x3D], 0x21) := by decide +kernel
/-- SERVING (2), source bank 0 (1); and the option word changing between two bytes of the status record: a transaction that has
the record captured goes on with the bytes it captured. -/
theorem test_read_status : after (.readTransaction (some 0x58) 2) serving (fun t => t.service.sent) = some [0x02, 0x01] ∧
    (∀ x ∈ [(none, (0x5A : Byte)), (some (Record.status, zeros 15), 0x00)],
      after (.readTransaction none 1) { serving with
          options := { serving.options with word := 0x5A }
          service := { serving.service with transaction := .reading, pointer := 0x09, capture := x.1 } }
        (fun t => t.service.sent) = some [x.2]) := by decide +kernel
theorem test_image_select : after (.imageSelectWrite 0x0F) (at' 0x30 serving) (fun t => t.service.select) = some 15 := by
  decide +kernel
theorem test_image_select_high : after (.imageSelectWrite 0x10) (at' 0x30 serving) (fun t => t.service.select) = some 0 := by
  decide +kernel
/-- A held counter: the clear sets the flag again and returns the counter to 0. -/
theorem test_clear_held : after (.clearWrite 0x02) (at' 0x11 { serving with service := { serving.service with
      flags := 0x03, imageCounter := 1 } }) (fun t => (t.service.flags, t.service.imageCounter)) = some (0x03, 0) := by decide +kernel
theorem test_event_mask : after (.eventMaskWrite 0x80) (at' 0x12 { serving with service := { serving.service with flags := 0x80 } })
    (fun t => (t.service.mask, t.svcIntLow)) = some (0x80, false) := by decide +kernel
theorem test_period : after (.periodWrite .imageComplete 3) (at' 0x13 { serving with service := { serving.service with
      imageCounter := 1 } }) (fun t => (t.service.imagePeriod, t.service.imageCounter)) = some (3, 0) := by decide +kernel
theorem test_register_argument : after (.registerWrite 0x03) (at' 0x18 serving) (fun t => t.service.argument) = some 3 := by
  decide +kernel
theorem test_restart_candidate : after (.registerWrite 0x3D) { serving with service := { serving.service with
      transaction := .candidate 1 } } (fun t => (t.service.transaction, t.service.acked)) = some (.abandoned, false) := by decide +kernel
theorem test_floor_refused : after .floorAdvance (at' 0x19 serving)
    (fun t => (t.service.result, t.service.reason, t.fuseController)) = some (.refused, .imagesIncomplete, .idle) := by
  decide +kernel
/-- Floor 1, root level 3: the lowest unburned floor fuse, number 1, is burned first. -/
theorem test_floor_burns : after .floorAdvance (at' 0x19 eligible)
    (fun t => (t.service.code, t.service.result, t.fuseController)) = some (0xA1, .busy, .burningFloor 1 3) := by decide +kernel
theorem test_revoke_active : after .revokeSlot (at' 0x19 { serving with service := { serving.service with argument := 1 } })
    (fun t => (t.service.result, t.service.reason)) = some (.refused, .activeSlot) := by decide +kernel
theorem test_revoke_burns : after .revokeSlot (at' 0x19 { serving with service := { serving.service with argument := 2 } })
    (fun t => (t.service.result, t.fuseController)) = some (.busy, .burningRevoke 2) := by decide +kernel
theorem test_bad_command : after (.badCommand 0x00) (at' 0x19 serving)
    (fun t => (t.service.code, t.service.result, t.service.reason)) = some (0x00, .refused, .badCommand) := by decide +kernel
theorem test_burn_goes_on : after (.fuseBurnCompletion true) { eligible with fuseController := .burningFloor 1 3 }
    (fun t => (t.fuseController, t.fuseImage.map (·.floorLevel), t.service.flags)) =
    some (.burningFloor 2 3, some 2, 0x00) := by decide +kernel
theorem test_burn_fault : after (.fuseBurnCompletion false) { eligible with fuseController := .burningRevoke 2 }
    (fun t => (t.fuseController, t.fuseArray.revoke[2], t.service.result, t.service.flags)) =
    some (.idle, .unsettled 0, .fault, 0x40) := by decide +kernel
theorem test_restart : after .restartSequence { serving with service := { serving.service with transaction := .candidate 2 } }
    (fun t => (t.manifest.state, t.fuseImage.isSome, t.images.length)) = some (.starting, true, 0) := by decide +kernel
theorem test_restart_held : after .serviceRestart { serving with
      fuseController := .burningFloor 1 3, service := { serving.service with pendingRestart := true } }
    (fun t => (t.manifest.state, t.service.pendingRestart)) = some (.serving, true) := by decide +kernel

/-! ## Witnesses: for each statement with hypotheses, a state and operands that meet them, clause by clause -/

theorem witness_StepRunsFrontCommand : State.reset.pending = [] ∧
    ({ State.reset with pending := [.flashGrant] } : State).pending = .flashGrant :: [] := ⟨rfl, rfl⟩

theorem witness_PowerOnAndReleaseEnterStarting :
    (let s : State := { State.reset with supplies := false }
     s.supplies = false ∧ s.resetN = true ∧ s.fuseController = .idle) ∧
    (let s : State := { State.reset with resetN := false }
     s.supplies = true ∧ s.resetN = false ∧ s.fuseController = .idle) := by decide +kernel

theorem witness_PowerLossStopsAndCutsTheBurn : (serving.supplies = true ∧ serving.resetN = true) ∧
    -- a frame that runs, nothing bound to it or the head's response
    (∀ b ∈ [none, some 5], ∀ e ∈ [readEntry 5 [] (some .denied)],
      let s : State := { serving with portA := { released with queue := [e], frame := some (running b) } }
      s.supplies = true ∧ s.resetN = true ∧ s.portA.frame = some (running b) ∧ (running b).live = true ∧
        s.portA.queue = e :: [] ∧ e.status = some .denied ∧ (running (some 5)).bound = some e.id) ∧
    (let s : State := { serving with fuseController := .burningFloor 31 32 }
     s.supplies = true ∧ s.resetN = true ∧ s.fuseController = .burningFloor 31 32 ∧ s.fuseArray.floor[31] ≠ .burned) ∧
    (let s : State := { serving with fuseController := .burningRevoke 3 }
     s.supplies = true ∧ s.resetN = true ∧ s.fuseController = .burningRevoke 3 ∧ s.fuseArray.revoke[3] ≠ .burned) := by
  decide +kernel

theorem witness_FlashReadyWaitEnds : (State.reset.live = true ∧ State.reset.flash.op = .readyWait) ∧
    (0x01 : Byte).getLsbD 0 = true ∧ (0xFE : Byte).getLsbD 0 = false ∧
    (∀ a ∈ [AfterReset.fuseLoad, .readyWait, .idle],
      (starting .flashWait (.resetting a)).live = true ∧ (starting .flashWait (.resetting a)).flash.op = .resetting a) := by
  decide +kernel

theorem witness_FuseLoadSetsImageAndFlashMap :
    ((starting .fuseLoad .idle).live = true ∧ (starting .fuseLoad .idle).manifest.startStep = some .fuseLoad) ∧
    (∀ m ∈ [16, 32, 64], ∀ z ∈ [0, 8], let f : FuseImage := { fuses with flashMiB := m, recoveryMiB := z }
      (f.flashMiB = 16 ∨ f.flashMiB = 32 ∨ f.flashMiB = 64) ∧ f.recoveryMiB ≤ 8 ∧
        f.flashBytes ≤ m * 1048576 ∧ m * 1048576 - 1 < f.flashBytes) := by decide +kernel

theorem witness_SelfCheckLocksOrGoesOn :
    ∀ x ∈ [(false, 0), (false, 1), (false, 2), (true, 0), (true, 1)], let s := starting (.selfCheck x.1 x.2) .idle
      s.live = true ∧ s.fuseImage = some fuses ∧ s.manifest.startStep = some (.selfCheck x.1 x.2) := by decide +kernel

/-- The part reading bank 1's header, with the level found in bank 0. -/
def secondHeader (level : Option Nat) (f : FuseImage) : State :=
  { starting (.headers .bank1) (.walkRead ⟨0, 256⟩) with
    fuseImage := some f
    manifest := { ManifestUnit.cleared with startStep := some (.headers .bank1), levelBank0 := level } }

theorem witness_HeadersAreJudgedAndOrdered :
    (let s := starting (.headers .bank0) (.walkRead ⟨0, 256⟩)
     s.live = true ∧ s.fuseImage = some fuses ∧ s.manifest.startStep = some (.headers .bank0) ∧
       s.flash.op = .walkRead ⟨0, 256⟩) ∧
    (∀ d ∈ [zeros 256, header 3 1 1 9 3 [0x44, 0x01], header 1 1 1 9 3 [0x44, 0x01]], 256 = d.length) ∧
    slice (zeros 256) 0 4 ≠ [0x43, 0x4A, 0x4D, 0x46] ∧
    (let d := header 3 1 1 9 3 [0x44, 0x01]
     slice d 0 4 = [0x43, 0x4A, 0x4D, 0x46] ∧ d.getD 4 0 ≠ 0x01) ∧
    (let d := header 1 1 1 9 3 [0x44, 0x01]
     slice d 0 4 = [0x43, 0x4A, 0x4D, 0x46] ∧ d.getD 4 0 = 0x01 ∧ 8 < (d.getD 10 0).toNat ∧ (d.getD 10 0).toNat ≤ 9) ∧
    (∀ l ∈ [none, some 8, some 9], ∀ f ∈ [fuses, { fuses with recoveryMiB := 0 }], let s := secondHeader l f
      s.live = true ∧ s.fuseImage = some f ∧ s.manifest.startStep = some (.headers .bank1) ∧
        s.flash.op = .walkRead ⟨0, 256⟩ ∧ s.manifest.levelBank1 = none ∧ s.manifest.levelBank0 = l) ∧
    0 < fuses.recoveryMiB := by decide +kernel

/-- A child's frame at the last 256 bytes of its bank. -/
def childFrame (b : Bytes) : Frame := ⟨b, 7 * 1048576 - 256, .child, 0, none, 0x0F⟩

theorem witness_ManifestPartsAreJudged_first :
    (∀ top ∈ [frame0 [], childFrame []], let s := walking [top] (.walkRead ⟨0, 256⟩) none
      s.live = true ∧ s.manifest.state = .walking ∧ s.fuseImage = some fuses ∧
        s.manifest.current = some (.bank .bank0) ∧ s.manifest.stack = top :: [] ∧ top.buffer = [] ∧
        s.flash.op = .walkRead ⟨0, 256⟩) ∧
    (zeros 256).length = 256 ∧ slice (zeros 256) 0 4 ≠ [0x43, 0x4A, 0x4D, 0x46] ∧
    byteAt (header 2 1 1 9 3 [0x44, 0x01]) 4 ≠ (frame0 []).kind.code ∧
    (∀ x ∈ [(1, [0xFF, 0x00]), (1, [0x01, 0x20]), (0, [0x00, 0x01]), (17, [0x00, 0x01])],
      let d := header 1 1 x.1 9 3 x.2
      d.length = 256 ∧ slice d 0 4 = [0x43, 0x4A, 0x4D, 0x46] ∧ byteAt d 4 = (frame0 []).kind.code ∧
        (le16 d 8 < 256 ∨ 8192 < le16 d 8 ∨ byteAt d 6 < 1 ∨ 16 < byteAt d 6)) ∧
    (let d := header 3 1 1 9 3 [0x01, 0x01]
     d.length = 256 ∧ slice d 0 4 = [0x43, 0x4A, 0x4D, 0x46] ∧ byteAt d 4 = (childFrame []).kind.code ∧
       256 ≤ le16 d 8 ∧ le16 d 8 ≤ 8192 ∧ 1 ≤ byteAt d 6 ∧ byteAt d 6 ≤ 16 ∧
       fuses.regionBase (.bank .bank0) + fuses.regionBytes (.bank .bank0) < (childFrame []).location + le16 d 8) := by
  decide +kernel

theorem witness_ManifestPartsAreJudged_parts :
    (∀ n ∈ [[0x00, 0x01], [0x01, 0x01], [0x00, 0x20]], ∀ k ∈ [(1 : Byte), 4], let b := header 1 k 16 9 3 n
      b = (frame0 []).buffer ++ b ∧ slice b 0 4 = [0x43, 0x4A, 0x4D, 0x46] ∧ byteAt b 4 = (frame0 []).kind.code ∧
        256 ≤ le16 b 8 ∧ le16 b 8 ≤ 8192 ∧ 1 ≤ byteAt b 6 ∧ byteAt b 6 ≤ 16 ∧ (frame0 []).kind ≠ .child) ∧
    (header 1 1 16 9 3 [0x01, 0x01]).length < le16 (header 1 1 16 9 3 [0x01, 0x01]) 8 ∧
    le16 (header 1 1 16 9 3 [0x00, 0x01]) 8 ≤ (header 1 1 16 9 3 [0x00, 0x01]).length := by decide +kernel

theorem witness_ManifestPartsAreJudged_key :
    KeyVouched fuses .root 0 (header 1 1 1 9 3 [0x00, 0x01]) ∧ ¬ KeyVouched fuses .root 0 (header 1 4 1 9 3 [0x00, 0x01]) ∧
    KeyRevoked { fuses with revoked := fuses.revoked.set 1 true } .root (header 1 1 1 9 3 [0x00, 0x01]) ∧
    ¬ KeyRevoked fuses .root (header 1 1 1 9 3 [0x00, 0x01]) := by
  refine ⟨⟨1, by decide +kernel, by decide +kernel, by decide +kernel⟩, ?_,
    ⟨by decide, 1, by decide +kernel, by decide +kernel⟩, ?_⟩
  · rintro ⟨k, h, -⟩
    exact absurd h (by have := k.isLt; have : byteAt (header 1 4 1 9 3 [0x00, 0x01]) 5 = 4 := by decide +kernel
                       omega)
  · rintro ⟨-, k, h, r⟩
    have : byteAt (header 1 1 1 9 3 [0x00, 0x01]) 5 = 1 := by decide +kernel
    have : k = 1 := Fin.ext (by omega)
    subst this
    exact absurd r (by decide +kernel)

theorem witness_SignatureAndSettingsEndTheCandidate : (goodJob.passes = true ∧ badJob.passes = false) ∧
    (walking [frame0 root] .idle (some badJob)).manifest.signatureJob = some badJob ∧
    (∀ b ∈ [header 1 1 1 0 3 [0x40, 0x01], header 1 1 1 33 3 [0x40, 0x01], header 1 1 1 1 0 [0x40, 0x01]],
      let s := walking [frame0 b] .idle (some goodJob)
      s.live = true ∧ s.manifest.state = .walking ∧ s.manifest.signatureJob = some goodJob ∧ s.fuseImage = some fuses ∧
        s.manifest.current = some (.bank .bank0) ∧ s.manifest.stack = frame0 b :: [] ∧ b = (frame0 b).buffer ∧
        (frame0 b).kind = .root) ∧
    byteAt (header 1 1 1 0 3 [0x40, 0x01]) 10 < fuses.floor.toList.count true ∧
    (let b := header 1 1 1 33 3 [0x40, 0x01]
     fuses.floor.toList.count true ≤ byteAt b 10 ∧ 32 < byteAt b 10) ∧
    (let b := header 1 1 1 1 0 [0x40, 0x01]
     fuses.floor.toList.count true ≤ byteAt b 10 ∧ byteAt b 11 = 0) ∧
    1023 < le16 ((header 2 1 1 1 1 [0x40, 0x01]).set 25 0x04) 24 ∧
    ({ frame0 [] with kind := .recovery } : Frame).kind = .recovery :=
  ⟨⟨test_signature_good, test_signature_bad⟩, rfl, by decide +kernel⟩

/-- A root with one CHILD entry of 12 bytes at the offset given. -/
def rootWithChild (offset : Bytes) : Bytes := header 1 1 1 9 3 [0x0C, 0x01] ++ [2, 0, 12, 0] ++ offset ++ [0x0F, 0, 0, 0]

/-- The tests of a CHILD entry at their boundaries: well formed but not in a RECOVERY manifest; its offset off a multiple of 4,096
by 256 bytes, and a condition on bit 8; three frames below it; its first 256 bytes just outside and just inside the region. -/
theorem witness_EntriesDecideTheWalk_tests :
    (let b := rootWithChild [0, 0, 1, 0]
     256 + le16 b 258 ≤ le16 b 8 ∧ byteAt b 256 = 2 ∧ le16 b 258 = 12 ∧ (b.getD 257 0).getLsbD 0 = false) ∧
    (256 + le16 root 258 ≤ le16 root 8 ∧ byteAt root 256 = 1 ∧ byteAt root 269 = 1 ∧
      le16 root 258 = 32 + 32 * ((le16 root 272 + 127) / 128)) ∧
    (let b := rootWithChild [0, 1, 0, 0]
     ¬ le32 b 260 % 4096 = 0) ∧
    (let b := header 1 1 1 9 3 [0x10, 0x01] ++ [2, 1, 16, 0, 0, 0, 1, 0, 0x0F, 0, 0, 0, 8, 1, 0, 0]
     (b.getD 257 0).getLsbD 0 = true ∧ ¬ byteAt b 268 ≤ 7) ∧
    (let b := header 1 1 1 9 3 [0x10, 0x01] ++ [2, 1, 16, 0, 0, 0, 1, 0, 0x0F, 0, 0, 0, 7, 2, 0, 0]
     (b.getD 257 0).getLsbD 0 = true ∧ byteAt b 268 ≤ 7 ∧ byteAt b 269 = 2 ∧ le32 b 260 % 4096 = 0 ∧ 2 < 3) ∧
    fuses.regionBytes (.bank .bank0) < le32 (rootWithChild [0, 0, 0x70, 0]) 260 + 256 ∧
    le32 (rootWithChild [0, 0xF0, 0x6F, 0]) 260 + 256 ≤ fuses.regionBytes (.bank .bank0) := by decide +kernel

theorem witness_EntriesDecideTheWalk_first : goodJob.passes = true ∧
    (∀ b ∈ [root, rootWithChild [0, 0, 1, 0], rootWithChild [0, 0, 0x70, 0], header 1 1 1 9 3 [0x00, 0x01]],
      let s := walking [frame0 b] .idle (some goodJob)
      s.live = true ∧ s.manifest.state = .walking ∧ s.manifest.signatureJob = some goodJob ∧ s.fuseImage = some fuses ∧
        s.manifest.current = some (.bank .bank0) ∧ s.manifest.stack = frame0 b :: [] ∧
        checkSettings fuses .root b = .none ∧ 1 ≤ byteAt b 6) ∧
    classifyEntry (header 1 1 1 9 3 [0x00, 0x01]) 256 .root = none ∧
    (let b := root.set 268 0
     classifyEntry b 256 .root = some true ∧ judgeImage fuses (.bank .bank0) [] 0 [] b 256 = .refused .badEntry) ∧
    (let b := rootWithChild [0, 0, 0x70, 0]
     classifyEntry b 256 .root = some false ∧ judgeChild fuses (.bank .bank0) 1 b 256 = .refused .outOfRegion) ∧
    (let b := rootWithChild [0, 0, 1, 0]
     classifyEntry b 256 .root = some false ∧
       judgeChild fuses (.bank .bank0) 1 b 256 = .pushed ⟨[], 0x10000, .child, 0, none, 0x0F⟩) :=
  ⟨test_signature_good, by decide +kernel⟩

/-- The image record of `root`'s IMAGE entry. -/
def entryImage : Image := { image0 with releaseMode := .lazy, included := false, conditions := [] }

/-- A manifest with `root`'s IMAGE entry and then the bytes of a second entry. -/
def twoEntries (kind : Byte) (length : Bytes) (second : Bytes) : Bytes :=
  header kind 1 2 9 3 length ++ imageEntry 3 1 2 0 [2, 0] [0, 0, 1, 0] [0, 0, 2, 0] [0, 0, 0, 0] ++ second

/-- A CHILD entry at the offset given. -/
def childEntry (offset : Bytes) : Bytes := [2, 0, 12, 0] ++ offset ++ [0x0F, 0, 0, 0]

/-- A root whose first entry is good, its image the first of the tables. -/
theorem passes_first (b : Bytes) (hn : 0 < byteAt b 6) (hc : classifyEntry b 256 .root = some true)
    (hj : judgeImage fuses (.bank .bank0) [] 0 [] b 256 = .accepted entryImage [zeros 32]) :
    WalkPasses fuses (.bank .bank0) [] 0 [{ frame0 b with next := 0 }] [(entryImage, [zeros 32])]
      [{ frame0 b with next := 1 }] := .image hn hc hj (.here _ _ _)

/-- The second entry of a root, after its good IMAGE entry: ill formed; an IMAGE entry refused, its window overlapping the first
one's; a CHILD entry refused, and one that pushes. -/
def seconds : List Bytes :=
  [twoEntries 1 [0x4C, 0x01] [3, 0, 12, 0, 0, 0, 1, 0, 0x0F, 0, 0, 0], twoEntries 1 [0x80, 0x01] (root.drop 256),
    twoEntries 1 [0x4C, 0x01] (childEntry [0, 0, 0x70, 0]), twoEntries 1 [0x4C, 0x01] (childEntry [0, 0, 1, 0])]

theorem witness_EntriesDecideTheWalk_later : goodJob.passes = true ∧
    (∀ b ∈ seconds, let s := walking [frame0 b] .idle (some goodJob)
      s.live = true ∧ s.manifest.state = .walking ∧ s.manifest.signatureJob = some goodJob ∧ s.fuseImage = some fuses ∧
        s.manifest.current = some (.bank .bank0) ∧ s.manifest.stack = frame0 b :: [] ∧ ([] : List Frame).length ≤ 2 ∧
        checkSettings fuses .root b = .none ∧ byteAt b 6 = 2 ∧ [(entryImage, [zeros 32])].length ≤ 48 ∧
        s.images = [] ∧ s.store.length = 0) ∧
    (∀ b ∈ seconds, WalkPasses fuses (.bank .bank0) [] 0 [{ frame0 b with next := 0 }] [(entryImage, [zeros 32])]
      [{ frame0 b with next := 1 }]) ∧
    (let b := twoEntries 1 [0x4C, 0x01] [3, 0, 12, 0, 0, 0, 1, 0, 0x0F, 0, 0, 0]
     classifyEntry b (entryOffset b 1) .root = none) ∧
    (let b := twoEntries 1 [0x80, 0x01] (root.drop 256)
     classifyEntry b (entryOffset b 1) .root = some true ∧
       judgeImage fuses (.bank .bank0) [entryImage] 1 [] b (entryOffset b 1) = .refused .windowOverlap) ∧
    (let b := twoEntries 1 [0x4C, 0x01] (childEntry [0, 0, 0x70, 0])
     classifyEntry b (entryOffset b 1) .root = some false ∧
       judgeChild fuses (.bank .bank0) 1 b (entryOffset b 1) = .refused .outOfRegion) ∧
    (let b := twoEntries 1 [0x4C, 0x01] (childEntry [0, 0, 1, 0])
     classifyEntry b (entryOffset b 1) .root = some false ∧
       judgeChild fuses (.bank .bank0) 1 b (entryOffset b 1) = .pushed ⟨[], 0x10000, .child, 0, none, 0x0F⟩) := by
  have entries : ∀ b ∈ seconds, 0 < byteAt b 6 ∧ classifyEntry b 256 .root = some true ∧
      judgeImage fuses (.bank .bank0) [] 0 [] b 256 = .accepted entryImage [zeros 32] := by decide +kernel
  exact ⟨test_signature_good, by decide +kernel,
    fun b h => passes_first b (entries b h).1 (entries b h).2.1 (entries b h).2.2, by decide +kernel⟩

/-- A child of one IMAGE entry. -/
def oneChild : Frame := childFrame (header 3 1 1 0 0 [0x40, 0x01] ++ root.drop 256)

/-- The child's entry passes and its frame is popped, which moves its parent past its CHILD entry. -/
theorem passes_popped (b : Bytes) : WalkPasses fuses (.bank .bank0) [] 0 [{ oneChild with next := 0 }, frame0 b]
    [(entryImage, [zeros 32])] [{ frame0 b with next := 1 }] :=
  .image (by decide +kernel) (by decide +kernel) (show judgeImage fuses (.bank .bank0) [] 0 [] oneChild.buffer 256 =
    .accepted entryImage [zeros 32] by decide +kernel) (.pop (by decide +kernel) (.here _ _ _))

/-- A child of one IMAGE entry, its parent's only entry, and a parent with a second CHILD entry after it. -/
theorem witness_EntriesDecideTheWalk_popped :
    (∀ b ∈ [rootWithChild [0, 0, 1, 0],
        header 1 1 2 9 3 [0x18, 0x01] ++ childEntry [0, 0, 1, 0] ++ childEntry [0, 0, 2, 0]],
      let s := walking [oneChild, frame0 b] .idle (some goodJob)
      s.live = true ∧ s.manifest.state = .walking ∧ s.manifest.signatureJob = some goodJob ∧ s.fuseImage = some fuses ∧
        s.manifest.current = some (.bank .bank0) ∧ s.manifest.stack = oneChild :: [frame0 b] ∧ [frame0 b].length ≤ 2 ∧
        checkSettings fuses .child oneChild.buffer = .none ∧ s.images = [] ∧ s.store.length = 0) ∧
    (∀ b, WalkPasses fuses (.bank .bank0) [] 0 ({ oneChild with next := 0 } :: [frame0 b]) [(entryImage, [zeros 32])]
      ({ frame0 b with next := 1 } :: [])) ∧
    (let b := header 1 1 2 9 3 [0x18, 0x01] ++ childEntry [0, 0, 1, 0] ++ childEntry [0, 0, 2, 0]
     1 < byteAt b 6 ∧ classifyEntry b (entryOffset b 1) .root = some false ∧
       judgeChild fuses (.bank .bank0) 1 b (entryOffset b 1) = .pushed ⟨[], 0x20000, .child, 0, none, 0x0F⟩) ∧
    byteAt (rootWithChild [0, 0, 1, 0]) 6 ≤ 1 :=
  ⟨by decide +kernel, passes_popped, by decide +kernel, by decide +kernel⟩

/-- A root of two IMAGE entries, the second one's window right after the first one's. -/
def rootOfTwo : Bytes :=
  twoEntries 1 [0x80, 0x01] (imageEntry 3 1 2 0 [2, 0] [0, 0, 1, 0] [0, 0, 2, 0] [0, 0x20, 0, 0])

/-- Its images. -/
def bothImages : List (Image × List Digest) :=
  [(entryImage, [zeros 32]), ({ entryImage with index := 1, windowBase := 8192, firstStore := 1 }, [zeros 32])]

/-- The last entry completes the walk: of a root with one IMAGE entry, and of one with two and no CHILD entry. -/
theorem witness_EntriesDecideTheWalk_last :
    (∀ b ∈ [root, rootOfTwo], let s := walking [frame0 b] .idle (some goodJob)
      s.live = true ∧ s.manifest.state = .walking ∧ s.manifest.signatureJob = some goodJob ∧ s.fuseImage = some fuses ∧
        s.manifest.current = some (.bank .bank0) ∧ s.manifest.stack = frame0 b :: [] ∧ checkSettings fuses .root b = .none ∧
        s.images = [] ∧ s.store.length = 0) ∧
    WalkPasses fuses (.bank .bank0) [] 0 ({ frame0 root with next := 0 } :: []) [(entryImage, [zeros 32])]
      ({ frame0 root with next := 1 } :: []) ∧ byteAt root 6 ≤ 1 ∧
    WalkPasses fuses (.bank .bank0) [] 0 ({ frame0 rootOfTwo with next := 0 } :: []) bothImages
      ({ frame0 rootOfTwo with next := 2 } :: []) ∧ byteAt rootOfTwo 6 ≤ 2 ∧ bothImages.length ≤ 48 :=
  ⟨by decide +kernel, passes_first root (by decide +kernel) (by decide +kernel) (by decide +kernel), by decide +kernel,
    .image (by decide +kernel) (by decide +kernel) (show judgeImage fuses (.bank .bank0) [] 0 [] rootOfTwo 256 =
      .accepted entryImage [zeros 32] by decide +kernel) (.image (by decide +kernel) (by decide +kernel)
        (show judgeImage fuses (.bank .bank0) [entryImage] 1 [] rootOfTwo (entryOffset rootOfTwo 1) =
          .accepted { entryImage with index := 1, windowBase := 8192, firstStore := 1 } [zeros 32] by decide +kernel)
        (.here _ _ _)), by decide +kernel, by decide⟩

theorem witness_ImageEntryTestsInOrder :
    -- the fields: an owner code of 0, a segment count of 0, a depth of 5
    (byteAt (root.set 268 0) 268 = 0 ∧ le16 (root.set 272 0) 272 = 0 ∧ byteAt (root.set 271 5) 271 = 5) ∧
    -- in range with 8,192 segments, which leave a region of 7 MiB
    (let b := (root.set 272 0).set 273 0x20
     1 ≤ byteAt b 268 ∧ byteAt b 268 ≤ 3 ∧ le16 b 272 = 8192 ∧ le32 b 276 % 4096 = 0 ∧ le32 b 280 % 4096 = 0 ∧
       byteAt b 269 = 1 ∧ byteAt b 270 = 2 ∧ byteAt b 271 = 0 ∧ (b.getD 257 0).getLsbD 0 = false ∧
       ¬ le32 b 276 + le16 b 272 * 4096 ≤ fuses.regionBytes (.bank .bank0)) ∧
    -- in range and in the region: a window base of 1, one that overlaps image 0, and the room in the tables
    (let b := root
     1 ≤ byteAt b 268 ∧ byteAt b 268 ≤ 3 ∧ le16 b 272 = 2 ∧ le32 b 276 % 4096 = 0 ∧ le32 b 280 % 4096 = 0 ∧
       byteAt b 269 = 1 ∧ byteAt b 270 = 2 ∧ byteAt b 271 = 0 ∧ (b.getD 257 0).getLsbD 0 = false ∧
       le32 b 276 + 2 * 4096 ≤ fuses.regionBytes (.bank .bank0) ∧ le32 b 280 + 1 * 4096 ≤ fuses.regionBytes (.bank .bank0) ∧
       ¬ le32 (b.set 284 1) 284 % 4096 = 0 ∧ le32 b 284 % 4096 = 0 ∧ le32 b 284 + 2 * 4096 ≤ 2 ^ 26 ∧
       ¬ (le32 b 284 + 2 * 4096 ≤ image0.windowBase ∨ image0.windowBase + image0.windowSpan ≤ le32 b 284) ∧
       ([] : List Image).length < 16 ∧ 128 < 128 + (2 + 127) / 128 ∧ 127 + (2 + 127) / 128 ≤ 128) ∧
    -- sixteen images on Port A with their windows elsewhere
    (let images := List.replicate 16 { image0 with owner := .a, windowBase := 0x10000 }
     16 ≤ images.length ∧ ∀ im ∈ images, le32 root 284 + 2 * 4096 ≤ im.windowBase) := by decide +kernel

theorem witness_WalkNeverStalls : let s := walking [frame0 root] .idle (some goodJob)
    s.live = true ∧ s.manifest.state = .walking ∧ s.manifest.signatureJob = some goodJob ∧ s.fuseImage.isSome = true ∧
      s.manifest.current.isSome = true ∧ s.manifest.stack ≠ [] ∧ s.manifest.stack.length ≤ 3 ∧
      ∀ fr ∈ s.manifest.stack, byteAt fr.buffer 6 ≤ 16 := by decide +kernel

theorem witness_TeardownWalksTheRecoveryManifest : ∀ op ∈ [FlashOp.idle, .erasing 0x700000 5],
    let s : State := { serving with flash := ⟨op, []⟩, manifest := { serving.manifest with state := .switching } }
    s.live = true ∧ s.manifest.state = .switching ∧ s.fuseImage = some fuses ∧ s.flash.op = op := by decide +kernel

/-! ### Flash -/

theorem witness_FlashGrantServesTheWalk :
    (let s := walking [frame0 []] .idle none
     let t : State := { s with manifest := { s.manifest with walkRead := some ⟨0, 256⟩ } }
     t.live = true ∧ t.flash.op = .idle ∧ t.manifest.state = .walking ∧ t.manifest.walkRead = some ⟨0, 256⟩ ∧
       s.manifest.walkRead = none ∧ s.live = true) ∧
    (let s := starting (.headers .bank0) .idle
     let t : State := { s with manifest := { s.manifest with walkRead := some ⟨0, 256⟩ } }
     t.live = true ∧ t.flash.op = .idle ∧ t.manifest.state = .starting ∧ t.manifest.walkRead = some ⟨0, 256⟩) ∧
    (writing (.erasing 0x700000 5)).flash.op ≠ .idle ∧
    ∀ x ∈ [VerifierState.switching, .locked], let s : State := { serving with manifest := { serving.manifest with state := x } }
      s.live = true ∧ s.manifest.state = x := by decide +kernel

/-- A READ at the head of a port's queue with its segment outstanding, image 0's block in a slot or not. -/
def demand (p : Port) (block : Bool) : State :=
  let s := serving.modPort p fun u => { u with queue := [readEntry 5 [⟨0, .outstanding⟩] none] }
  { s with
    arbiter := ⟨p, [], 0, 0⟩, slots := if block then s.slots.set 7 slot0 else s.slots, slotLru := if block then [7] else [] }

theorem witness_FlashGrantFillsAndFetches : ∀ p ∈ [Port.a, .b], ∀ block ∈ [true, false], let s := demand p block
    s.live = true ∧ s.flash.op = .idle ∧ s.manifest.state = .serving ∧ s.rescan.debt ≠ 8 ∧ s.arbiter.turn = p ∧
      (s.port p).queue = readEntry 5 [⟨0, .outstanding⟩] none :: [] ∧
      (readEntry 5 [⟨0, .outstanding⟩] none).status = none ∧ s.images[0]? = some image0 ∧ s.engine.waiting = none ∧
      (block = true → s.slots[7].state = .valid ∧ s.slots[7].tag = some ⟨0, 0 / 128⟩ ∧
        (∀ j : Fin 8, j < 7 → s.slots[j].state = .valid → s.slots[j].tag ≠ some ⟨0, 0 / 128⟩) ∧ s.chooseLine = some 0) ∧
      (block = false → (∀ j : Fin 8, s.slots[j].state ≠ .free → s.slots[j].tag ≠ some ⟨0, 0 / 128⟩) ∧
        s.store[image0.firstStore + 0 / 128]? = some ⟨0, 0, [], .good⟩ ∧ s.chooseSlot = some 0) := by decide +kernel

/-- A WRITE or ERASE at the head of Port A's queue, not yet granted. -/
def waitingWrite (b : Body) : State := { serving with portA := { released with queue := [⟨5, 0x11, b, none, false⟩] } }

theorem witness_WritesAndErasesRunAtTheFlash :
    (∀ b ∈ [Body.write 0x700000 [0xAA], .erase 0x700000, .erase 0x700FFF], let s := waitingWrite b
     s.live = true ∧ s.flash.op = .idle ∧ s.manifest.state = .serving ∧ s.rescan.debt ≠ 8 ∧ s.arbiter.turn = .a ∧
       s.portA.queue = ⟨5, 0x11, b, none, false⟩ :: []) ∧
    (∀ op ∈ [FlashOp.programming 0x700000 5, .erasing 0x700000 5], (writing op).live = true ∧ (writing op).flash.op = op) ∧
    (0x01 : Byte).getLsbD 0 = true ∧ (0x20 : Byte).getLsbD 0 = false ∧ (0x20 : Byte).getLsbD 5 = true := by decide +kernel

/-- Image 0's segment 0 VERIFIED with its block in slot 0, a debt, and the rescan cursor at segment `g` of image 0. -/
def rescanning (debt g : Nat) : State := { serving with
  segMap := [[.verified, .unverified], [.unverified, .unverified]]
  slots := serving.slots.set 0 slot0
  slotLru := [0]
  rescan := { serving.rescan with debt := debt, cursorSegment := g } }

theorem witness_RescanDebtForcesTheCandidate :
    -- the candidate's block in no slot
    (let s : State := { rescanning 8 0 with slots := serving.slots, slotLru := [] }
     s.rescanCandidate = some (⟨0, 0⟩, false) ∧ s.blockFailed 0 (0 / 128) = false ∧ s.chooseSlot = some 0 ∧
       ∀ j : Fin 8, s.slots[j].state ≠ .free → s.slots[j].tag ≠ some ⟨0, 0 / 128⟩) ∧
    (∀ d ∈ [7, 8], (rescanning d 0).live = true ∧ (rescanning d 0).rescan.running = true ∧ (rescanning d 0).rescan.debt = d) ∧
    ∀ x ∈ [(0, false), (1, true)], let s := rescanning 8 x.1
      s.live = true ∧ s.flash.op = .idle ∧ s.manifest.state = .serving ∧ s.rescan.debt = 8 ∧ s.rescan.buffer = .empty ∧
        s.rescanCandidate = some (⟨0, 0⟩, x.2) ∧ s.images[0]? = some image0 ∧ s.engine.waiting = none ∧
        s.slots[0].state = .valid ∧ s.slots[0].tag = some ⟨0, 0 / 128⟩ ∧
        ∀ j : Fin 8, j < 0 → s.slots[j].state = .valid → s.slots[j].tag ≠ some ⟨0, 0 / 128⟩ := by decide +kernel

theorem witness_BackgroundCandidatesAreFirst : serving.rescanCandidate = none ∧
    (rescanning 1 0).rescanCandidate = some (⟨0, 0⟩, false) ∧ (rescanning 1 1).rescanCandidate = some (⟨0, 0⟩, true) ∧
    serving.sweepCandidate = some ⟨0, 0⟩ ∧ (rescanning 1 0).sweepCandidate = some ⟨0, 1⟩ ∧
    -- the sweep takes the lowest image with an open segment, here image 0 with both open
    (∃ im, serving.images[0]? = some im ∧ im.included = true ∧ im.state = .pending ∧ 1 < im.segments) ∧
    (∀ g ∈ [0, 1], serving.segState 0 g = .unverified ∧ serving.blockFailed 0 (g / 128) = false) ∧
    (∀ g ∈ [0, 1], ∀ n : Fin 64, serving.lines[n].tag = some ⟨0, g⟩ →
      serving.lines[n].state = .free ∨ serving.lines[n].state = .stale) := by
  refine ⟨by decide +kernel, by decide +kernel, by decide +kernel, by decide +kernel, by decide +kernel,
    ⟨image0, rfl, rfl, rfl, by decide⟩, by decide +kernel, by decide +kernel⟩

/-- A debt, image 0's block in slot 0 or on its way to slot 1 or nowhere, a read-ahead list, every image VERIFIED or not. -/
def background (debt : Nat) (block : Option SlotState) (ahead : List ReadAhead) (open' : Bool) : State := { serving with
  segMap := if open' then [[.unverified, .verified], [.unverified, .unverified]] else [[.verified, .verified], [.verified, .verified]]
  slots := match block with
    | some .valid => serving.slots.set 0 slot0
    | some x => serving.slots.set 1 { slot0 with state := x, hold := 0 }
    | none => serving.slots
  slotLru := if block = some .valid then [0] else []
  arbiter := ⟨.a, ahead, 0, 0⟩
  rescan := { serving.rescan with debt := debt } }

theorem witness_BackgroundCandidatesAreFirst_classes :
    -- what every clause asks
    (∀ debt ∈ [0, 1, 7, 8], ∀ block ∈ [none, some SlotState.valid, some .filling], ∀ ahead ∈ [[], [⟨0, 0, .a⟩]],
      ∀ open' ∈ [true, false], let s := background debt block ahead open'
      s.live = true ∧ s.flash.op = .idle ∧ s.manifest.state = .serving ∧ s.engine.waiting = none ∧ s.demandGrant = none) ∧
    -- the block in a slot, or in none
    (let s := background 0 (some .valid) [⟨0, 0, .b⟩] true
     s.slots[0].state = .valid ∧ s.slots[0].tag = some ⟨0, 0 / 128⟩ ∧ s.chooseLine = some 0 ∧
       ∀ j : Fin 8, j < 0 → s.slots[j].state = .valid → s.slots[j].tag ≠ some ⟨0, 0 / 128⟩) ∧
    (let s := background 0 none [⟨0, 0, .b⟩] true
     s.blockFailed 0 (0 / 128) = false ∧ s.chooseSlot = some 0 ∧
       ∀ j : Fin 8, s.slots[j].state ≠ .free → s.slots[j].tag ≠ some ⟨0, 0 / 128⟩) ∧
    -- read-ahead: the oldest entry, and one behind an entry whose block is on its way
    (let s := background 0 (some .filling) [⟨0, 0, .b⟩, ⟨1, 0, .b⟩] true
     s.arbiter.readAhead = [⟨0, 0, .b⟩] ++ ⟨1, 0, .b⟩ :: [] ∧ s.standing 0 0 = .blocked ∧ s.images[1]? = some image1 ∧
       s.blockFailed 1 (0 / 128) = false ∧ s.chooseSlot = some 0 ∧
       ∀ j : Fin 8, s.slots[j].state ≠ .free → s.slots[j].tag ≠ some ⟨1, 0 / 128⟩) ∧
    -- the sweep, its candidate blocked at a debt of 0
    (background 0 none [] true).sweepCandidate = some ⟨0, 0⟩ ∧
    (let s := background 0 (some .filling) [] true
     s.sweepCandidate = some ⟨0, 0⟩ ∧ s.standing 0 0 = .blocked ∧ s.rescan.debt = 0) ∧
    -- the rescan unit at a debt of 1 to 7, the buffer EMPTY or in use, and at 8 with the buffer in use
    (∀ debt ∈ [1, 7], ∀ block ∈ [none, some SlotState.valid], let s := background debt block [] false
     s.sweepCandidate = none ∧ s.rescanCandidate = some (⟨0, 0⟩, false) ∧ 1 ≤ s.rescan.debt ∧ s.rescan.debt < 8 ∧
       s.rescan.buffer = .empty ∧ s.images[0]? = some image0) ∧
    (let s : State := { background 7 none [] false with rescan := { serving.rescan with debt := 7, buffer := .hashing } }
     s.demandGrant = none ∧ s.sweepCandidate = none ∧ s.rescanCandidate = some (⟨0, 0⟩, false) ∧ s.rescan.buffer ≠ .empty) ∧
    (let s : State := { background 8 none [] false with rescan := { serving.rescan with debt := 8, buffer := .hashing } }
     s.demandGrant = none ∧ s.sweepCandidate = none ∧ s.rescan.debt = 8 ∧ s.rescan.buffer ≠ .empty) := by
  refine ⟨?_, ?_, ?_, ?_, ?_, ?_, ?_, ?_, ?_⟩ <;> decide +kernel

theorem witness_GrantedReadsWereGrantable :
    after .flashGrant (demand .a true) (·.flash.op) = some (.unitRead ⟨.line 0 ⟨0, 0⟩ 7, false⟩ 0x10000) ∧
    after .flashGrant (demand .a false) (·.flash.op) = some (.unitRead ⟨.slot 0 ⟨0, 0⟩, false⟩ 0x20000) ∧
    after .flashGrant (rescanning 8 0) (·.flash.op) = some (.unitRead ⟨.rescan ⟨0, 0⟩ 0, false⟩ 0x10000) := by decide +kernel

theorem witness_ReadDoneHandsTheUnitOver : (zeros 4096).length = 4096 ∧
    ∀ o ∈ [UnitOwner.line 0 ⟨0, 0⟩ 0, .slot 0 ⟨0, 0⟩, .rescan ⟨0, 0⟩ 0], ∀ x ∈ [true, false],
      ∀ h ∈ [none, some (HashUnit.mk (.slot 1 ⟨0, 0⟩) false)],
      let s : State := { serving with flash := ⟨.unitRead ⟨o, x⟩ 0, []⟩, engine := ⟨h, none⟩ }
      s.live = true ∧ s.flash.op = .unitRead ⟨o, x⟩ 0 ∧ s.engine.hashing = h := by decide +kernel

/-! ### Verification -/

theorem witness_BlockMatchAndDiscardedUnits :
    (let s := hashingSlot (sha256 [])
     s.live = true ∧ s.engine.hashing = some ⟨.slot 0 ⟨0, 0⟩, false⟩ ∧ s.images[0]? = some image0 ∧
       s.store[image0.firstStore + 0]? = some ⟨0, 0, sha256 [], .good⟩ ∧ sha256 s.slots[0].data = sha256 []) ∧
    ∀ o ∈ [UnitOwner.line 0 ⟨0, 0⟩ 0, .slot 0 ⟨0, 0⟩, .rescan ⟨0, 0⟩ 0],
      let s : State := { serving with engine := ⟨some ⟨o, true⟩, none⟩ }
      s.live = true ∧ s.engine.hashing = some ⟨o, true⟩ := by decide +kernel

/-- Auto-recovery off: an image failure stays in SERVING. -/
def noRecovery (s : State) : State := { s with fuseImage := some { fuses with autoRecovery := false } }

theorem staysPut_noRecovery (s : State) : (noRecovery s).staysPut := by
  intro f h
  cases h
  exact .inr (.inl rfl)

theorem witness_BlockMismatchFailsTheImage : (noRecovery (hashingSlot (zeros 32))).staysPut ∧
    (let s := noRecovery (hashingSlot (zeros 32))
     s.live = true ∧ s.engine.hashing = some ⟨.slot 0 ⟨0, 0⟩, false⟩ ∧ s.images[0]? = some image0 ∧ image0.state ≠ .failed ∧
       s.store[image0.firstStore + 0]? = some ⟨0, 0, zeros 32, .good⟩ ∧ sha256 s.slots[0].data ≠ zeros 32) ∧
    -- an image already FAILED, its block failing, with auto-recovery on
    (let im : Image := { image0 with state := .failed, failure := some (.segment 1) }
     let s : State := { hashingSlot (zeros 32) with images := [im, image1] }
     s.live = true ∧ im.state = .failed ∧ s.engine.hashing = some ⟨.slot 0 ⟨0, 0⟩, false⟩ ∧ s.images[0]? = some im ∧
       s.store[im.firstStore + 0]? = some ⟨0, 0, zeros 32, .good⟩ ∧ sha256 s.slots[0].data ≠ zeros 32) :=
  ⟨staysPut_noRecovery _, by decide +kernel, by decide +kernel⟩

/-- Line 0 holds 4,096 bytes of segment 0 being hashed against its digest in slot 0, and a READ of Port A waits on it; the image
and its list of segments are given. -/
def waitingOn (x : Image × List SegState) : State := { serving with
  images := [x.1, image1]
  segMap := [x.2, [.unverified, .unverified]]
  engine := ⟨some ⟨.line 0 ⟨0, 0⟩ 0, false⟩, none⟩
  lines := serving.lines.set 0 { line0 .hashing 0 [⟨.a, 5, [⟨0, 0, 4096⟩]⟩] with data := zeros 4096 }
  slots := serving.slots.set 0 { slot0 with data := sha256 (zeros 4096) }
  slotLru := [0]
  portA := { released with queue := [readEntry 5 [⟨0, .waiting 0⟩] none] }
  nextEntry := 6 }

/-- Segment 0 UNVERIFIED, the last one of its image or not, and VERIFIED already. -/
def waitingOns : List (Image × List SegState) :=
  [(image0, [.unverified, .unverified]), ({ image0 with verified := 1 }, [.unverified, .verified]),
    ({ image0 with verified := 1 }, [.verified, .unverified])]

theorem serving_lines_whole : ∀ k : Fin 64, serving.lines[k].data.length = 4096 := by decide +kernel

theorem lines_whole (s : State) (n : Fin 64) (x : Line) (hx : x.data.length = 4096) (h : s.lines = serving.lines.set n x)
    (m : Fin 64) : s.lines[m].data.length = 4096 := by
  have hm : s.lines[m] = if (n : Nat) = m then x else serving.lines[m] := by
    rw [Fin.getElem_fin, h, Vector.getElem_set, Fin.getElem_fin]
  rw [hm]
  split
  · exact hx
  · exact serving_lines_whole m

theorem waitingOn_agrees (x : Image × List SegState) (hx : x ∈ waitingOns) : PinsAgree (waitingOn x) := by
  have hf : ∀ x ∈ waitingOns, (waitingOn x).segState 0 0 ≠ .failed := by decide +kernel
  have hr : ReadAgrees (waitingOn x) none ⟨0, 4096, false, some 0, 4096, false, [⟨0, 0, 4096⟩], [⟨0, .waiting 0⟩]⟩ := by
    refine ⟨by decide, ⟨by decide, by decide⟩, ?_, fun _ => ⟨by decide, by decide⟩, fun y h => (by cases h)⟩
    intro h hh
    obtain rfl : h = ⟨0, .waiting 0⟩ := by simpa using hh
    exact ⟨0, rfl, rfl, rfl, hf x hx⟩
  have key : ∀ x ∈ waitingOns,
      (∀ p ∈ [Port.a, .b], (((waitingOn x).port p).queue.map (·.id)).Nodup ∧
        ∀ e ∈ ((waitingOn x).port p).queue, e.id < (waitingOn x).nextEntry) ∧ (waitingOn x).slotLru.Nodup ∧
      (∀ n : Fin 64, ((waitingOn x).lines[n].waiters.map fun w => (w.port, w.entry)).Nodup ∧
        ∀ w ∈ (waitingOn x).lines[n].waiters, ∃ e ∈ ((waitingOn x).port w.port).queue, e.id = w.entry ∧
          ∃ h ∈ e.holds, h.hold = .waiting n) ∧
      (∀ n : Fin 64, (waitingOn x).lines[n].pins = (waitingOn x).pinsOn n) ∧
      (∀ n : Fin 64, (waitingOn x).lines[n].state = .free ↔ (waitingOn x).lines[n].tag = none) ∧
      (∀ n : Fin 64, (waitingOn x).lines[n].streamMark = false ∧ (waitingOn x).lines[n].state ≠ .stale ∧
        ((waitingOn x).lines[n].state.present = true → n = 0) ∧ (waitingOn x).lines[n].state ≠ .valid) ∧
      (∀ k : Fin 8, k ∈ (waitingOn x).slotLru ↔ (waitingOn x).slots[k].state = .valid) ∧
      ∀ k : Fin 8, (waitingOn x).slots[k].hold = (waitingOn x).liveUnits.countP fun o => o.uses == some k := by
    decide +kernel
  obtain ⟨k8, k7, k1, k2, k3, k4, k5, k6⟩ := key x hx
  refine ⟨fun p => k8 p (by cases p <;> decide), ?_, ?_, k1, k2,
    fun m n hm hn _ => ((k4 m).2.2.1 hm).trans ((k4 n).2.2.1 hn).symm, fun r h => (by cases h), k3,
    lines_whole _ 0 _ List.length_replicate rfl, fun n h => (by rw [(k4 n).1] at h; cases h),
    fun n h => absurd h (k4 n).2.1, ⟨List.nodup_nil, fun n => ⟨fun h => (by cases h), fun h => absurd h (k4 n).2.2.2⟩⟩,
    ⟨k7, k5⟩, k6, ⟨fun u a h => (by cases h), fun _ => rfl⟩, fun id h => (by cases h), fun e h => (by cases h)⟩
  · intro p e he r hb
    cases p
    · obtain rfl : e = readEntry 5 [⟨0, .waiting 0⟩] none := by simpa [waitingOn, State.port] using he
      cases hb
      exact hr
    · cases he
  · intro p e he h hh n hn
    cases p
    · obtain rfl : e = readEntry 5 [⟨0, .waiting 0⟩] none := by simpa [waitingOn, State.port] using he
      obtain rfl : h = ⟨0, .waiting 0⟩ := by simpa [readEntry, Entry.holds] using hh
      cases hn
      exact List.mem_singleton.mpr rfl
    · cases he

theorem witness_SegmentMatchMakesTheLineValid :
    (∀ x ∈ waitingOns, PinsAgree (waitingOn x)) ∧
    (∀ x ∈ waitingOns, let s := waitingOn x
     s.live = true ∧ s.engine.hashing = some ⟨.line 0 ⟨0, 0⟩ 0, false⟩ ∧ s.images[0]? = some x.1 ∧ s.lines[0].state = .hashing ∧
       s.lines[0].tag = some ⟨0, 0⟩ ∧ s.segState 0 0 ≠ .failed) ∧
    (∀ x, sha256 (waitingOn x).lines[(0 : Fin 64)].data = slice (waitingOn x).slots[(0 : Fin 8)].data (32 * (0 % 128)) 32) ∧
    (∀ x ∈ waitingOns, (waitingOn x).segState 0 0 = x.2.getD 0 .failed) ∧
    (∀ x ∈ waitingOns, x.1.state = .pending ∧ (x.1.verified = 1 → x.1.segments ≤ x.1.verified + 1)) ∧
    -- the match completes its image, or does not: the count short of N, or the segment VERIFIED already
    (let completes := fun x : Image × List SegState =>
      (waitingOn x).segState 0 0 = .unverified ∧ x.1.state = .pending ∧ x.1.segments ≤ x.1.verified + 1
     completes ({ image0 with verified := 1 }, [.unverified, .verified]) ∧
       ¬ completes (image0, [.unverified, .unverified]) ∧
       ¬ completes ({ image0 with verified := 1 }, [.verified, .unverified])) := by
  refine ⟨waitingOn_agrees, by decide +kernel, fun x => (slice_sha256_self _).symm, by decide +kernel, by decide +kernel,
    by decide +kernel⟩

/-- The match that makes the last included image COMPLETE while the request stands begins the rise with PL0's delay of 1; with
PERMIT_ON not yet sent the permit stays WITHHELD. -/
theorem test_completion_begins_the_rise : (∀ r ∈ [true, false],
    after .segmentHashDone { hashingLine [] (sha256 []) with
      images := [{ image0 with verified := 1 }], segMap := [[.unverified, .verified]], permitRequest := r }
    (fun t => (t.permit.state, t.permit.timer)) =
      some (if r then (.rising, some ⟨.pl0, 1⟩) else (.withheld, none))) := by decide +kernel

theorem witness_SegmentMismatchFailsTheImage : (noRecovery (hashingLine [] (zeros 32))).staysPut ∧
    (let s := noRecovery (hashingLine [] (zeros 32))
     s.live = true ∧ s.engine.hashing = some ⟨.line 0 ⟨0, 0⟩ 0, false⟩ ∧ s.images[0]? = some image0 ∧ image0.state ≠ .failed ∧
       s.segState 0 0 ≠ .failed ∧ sha256 s.lines[0].data ≠ slice s.slots[0].data (32 * (0 % 128)) 32) ∧
    -- the segment FAILED already, and the image FAILED already with auto-recovery on
    ({ hashingLine [] (zeros 32) with segMap := [[.failed, .unverified], []] } : State).segState 0 0 = .failed ∧
    (let im : Image := { image0 with state := .failed, failure := some (.segment 1) }
     let s : State := { hashingLine [] (zeros 32) with images := [im, image1] }
     s.live = true ∧ s.engine.hashing = some ⟨.line 0 ⟨0, 0⟩ 0, false⟩ ∧ im.state = .failed ∧ s.images[0]? = some im ∧
       s.segState 0 0 ≠ .failed ∧ sha256 s.lines[0].data ≠ slice s.slots[0].data (32 * (0 % 128)) 32) :=
  ⟨staysPut_noRecovery _, by decide +kernel, by decide +kernel, by decide +kernel⟩

/-- The rescan buffer, of VERIFIED segment 0, is being hashed against slot 0; line 3 holds the segment, pinned by a READ of Port A
whose outcome is OK, or by none. Image 0, the pin and the digests are given. -/
def pinnedOn (x : Image × Bool × Bytes) : State := { serving with
  images := [x.1, image1]
  segMap := [[.verified, .unverified], [.unverified, .unverified]]
  store := [⟨0, 0, sha256 x.2.2, .good⟩, ⟨1, 0, [], .good⟩]
  engine := ⟨some ⟨.rescan ⟨0, 0⟩ 0, false⟩, none⟩
  slots := serving.slots.set 0 { slot0 with data := x.2.2 }
  slotLru := [0]
  lines := serving.lines.set 3 { line0 .valid (bit x.2.1) [] with data := zeros 4096 }
  lineLru := [3]
  rescan := { serving.rescan with buffer := .hashing, tag := some ⟨0, 0⟩, data := [], debt := 2 }
  portA := { released with queue := if x.2.1 then [readEntry 5 [⟨0, .pinned 3⟩] (some .ok)] else [] }
  nextEntry := 6 }

/-- The digests are that of 4,096 zeros. -/
def provenCase : Image × Bool × Bytes := ({ image0 with verified := 1 }, true, sha256 (zeros 4096))

theorem slice_provenCase : slice provenCase.2.2 0 32 = sha256 (zeros 4096) := by
  simp only [provenCase, slice_sha256_self]

/-- The line pinned or not, image 0 FAILED already or not, the digests none at all or that of the line's 4,096 bytes. -/
def pinnedOns : List (Image × Bool × Bytes) :=
  [({ image0 with verified := 1 }, true, []), ({ image0 with verified := 1 }, false, []),
    ({ image0 with verified := 1, state := .failed, failure := some (.segment 1) }, true, []),
    provenCase]

theorem pinnedOn_agrees (x : Image × Bool × Bytes) (hx : x ∈ pinnedOns) : PinsAgree (pinnedOn x) := by
  have hl : (pinnedOn x).lines[(3 : Fin 64)] = { line0 .valid (bit x.2.1) [] with data := zeros 4096 } := rfl
  have hr : ReadAgrees (pinnedOn x) (some .ok) ⟨0, 4096, false, some 0, 4096, false, [⟨0, 0, 4096⟩], [⟨0, .pinned 3⟩]⟩ := by
    refine ⟨by decide, ⟨by decide, by decide⟩, ?_, fun h => (by cases h), fun y h => .inl ⟨.inl (by cases h; rfl), rfl, ?_⟩⟩
    · intro h hh
      obtain rfl : h = ⟨0, .pinned 3⟩ := by simpa using hh
      refine ⟨0, rfl, ?_⟩
      show Line.keeps (pinnedOn x).lines[(3 : Fin 64)] ⟨0, 0⟩
      rw [hl]
      exact ⟨.inl rfl, rfl⟩
    · intro p hp
      obtain rfl : p = ⟨0, 0, 4096⟩ := by simpa using hp
      exact ⟨3, List.mem_singleton.mpr rfl⟩
  have key : ∀ x ∈ pinnedOns,
      (∀ p ∈ [Port.a, .b], (((pinnedOn x).port p).queue.map (·.id)).Nodup ∧
        ∀ e ∈ ((pinnedOn x).port p).queue, e.id < (pinnedOn x).nextEntry) ∧ (pinnedOn x).slotLru.Nodup ∧
      (∀ n : Fin 64, (pinnedOn x).lines[n].waiters = []) ∧
      (∀ n : Fin 64, (pinnedOn x).lines[n].pins = (pinnedOn x).pinsOn n) ∧
      (∀ n : Fin 64, (pinnedOn x).lines[n].state = .free ↔ (pinnedOn x).lines[n].tag = none) ∧
      (∀ n : Fin 64, (pinnedOn x).lines[n].streamMark = false ∧ (pinnedOn x).lines[n].state ≠ .stale ∧
        ((pinnedOn x).lines[n].state.present = true → n = 3)) ∧
      (∀ n : Fin 64, n ∈ (pinnedOn x).lineLru ↔ (pinnedOn x).lines[n].state = .valid) ∧
      (∀ k : Fin 8, k ∈ (pinnedOn x).slotLru ↔ (pinnedOn x).slots[k].state = .valid) ∧
      ∀ k : Fin 8, (pinnedOn x).slots[k].hold = (pinnedOn x).liveUnits.countP fun o => o.uses == some k := by
    decide +kernel
  obtain ⟨k1, k2, k3, k4, k5, k6, k7, k8, k9⟩ := key x hx
  have hq : ∀ e ∈ ((pinnedOn x).port .a).queue, e = readEntry 5 [⟨0, .pinned 3⟩] (some .ok) := by
    intro e he
    unfold pinnedOn State.port at he
    dsimp only at he
    split at he
    · simpa using he
    · cases he
  refine ⟨fun p => k1 p (by cases p <;> decide), ?_, ?_, fun n => ?_, k4,
    fun m n hm hn _ => ((k6 m).2.2 hm).trans ((k6 n).2.2 hn).symm, fun r h => (by cases h), k5,
    lines_whole _ 3 _ List.length_replicate rfl, fun n h => (by rw [(k6 n).1] at h; cases h),
    fun n h => absurd h (k6 n).2.1, ⟨(List.nodup_cons.mpr ⟨List.not_mem_nil, List.nodup_nil⟩ : ([3] : List (Fin 64)).Nodup), k7⟩, ⟨k2, k8⟩, k9,
    ⟨fun u a h => (by cases h), fun _ => rfl⟩, fun id h => (by cases h), fun e h => (by cases h)⟩
  · intro p e he r hb
    cases p
    · obtain rfl := hq e he
      cases hb
      exact hr
    · cases he
  · intro p e he h hh n hn
    cases p
    · obtain rfl := hq e he
      obtain rfl : h = ⟨0, .pinned 3⟩ := by simpa [readEntry, Entry.holds] using hh
      cases hn
    · cases he
  · rw [k3]
    exact ⟨List.nodup_nil, fun w h => (by cases h)⟩

theorem witness_RescanComparesWhileVerified :
    (∀ x ∈ pinnedOns, PinsAgree (pinnedOn x) ∧ PinsAgree (noRecovery (pinnedOn x))) ∧
    (noRecovery (pinnedOn ({ image0 with verified := 1 }, true, []))).staysPut ∧
    (∀ x ∈ pinnedOns, let s := pinnedOn x
     s.live = true ∧ s.engine.hashing = some ⟨.rescan ⟨0, 0⟩ 0, false⟩ ∧ s.images[0]? = some x.1 ∧ s.segState 0 0 = .verified ∧
       s.lines[3].state = .valid ∧ s.lines[3].tag = some ⟨0, 0⟩ ∧ s.lines[3].pins = bit x.2.1) ∧
    (∀ x : Image × Bool, sha256 (pinnedOn (x.1, x.2, [])).rescan.data ≠
      slice (pinnedOn (x.1, x.2, [])).slots[(0 : Fin 8)].data (32 * (0 % 128)) 32) ∧
    ({ image0 with verified := 1, state := .failed, failure := some (.segment 1) } : Image).state = .failed ∧
    -- the first half: a match, and a segment no longer VERIFIED
    (let s := hashingBuffer (sha256 [])
     s.live = true ∧ s.engine.hashing = some ⟨.rescan ⟨0, 0⟩ 0, false⟩ ∧ s.images[0]? = some { image0 with verified := 1 } ∧
       sha256 s.rescan.data = slice s.slots[0].data (32 * (0 % 128)) 32 ∧
       ({ s with segMap := [[.failed, .unverified], []] } : State).segState 0 0 ≠ .verified) := by
  refine ⟨fun x hx => ⟨pinnedOn_agrees x hx, ?_⟩, staysPut_noRecovery _, by decide +kernel, fun x h => ?_, rfl, by decide +kernel⟩
  · have h := pinnedOn_agrees x hx
    exact ⟨h.ids, fun p e he r hr => ⟨(h.reads p e he r hr).pieces, (h.reads p e he r hr).once, fun g hg => by
        obtain ⟨i, hi, st⟩ := (h.reads p e he r hr).stands g hg
        refine ⟨i, hi, ?_⟩
        cases e : g.hold <;> rw [e] at st <;> exact st, (h.reads p e he r hr).undecided, (h.reads p e he r hr).decided⟩,
      h.listed, h.waiters, h.pins, h.single, h.ahead, h.tagged, h.data, h.marks, h.stale, h.lineOrder, h.slotOrder, h.holds,
      h.waitPlace, h.writing, h.portB⟩
  · have := congrArg List.length h
    rw [sha256_length] at this
    cases this

theorem witness_FailureInServingSwitches :
    (fuses.autoRecovery = true ∧ 0 < fuses.recoveryMiB) ∧
    (∀ s ∈ [hashingSlot (zeros 32), hashingLine [] (zeros 32)],
      s.live = true ∧ s.fuseImage = some fuses ∧ s.manifest.state = .serving ∧ s.images[0]? = some image0 ∧
        image0.state ≠ .failed ∧ s.permit.cause = none) ∧
    (let s := hashingSlot (zeros 32)
     s.engine.hashing = some ⟨.slot 0 ⟨0, 0⟩, false⟩ ∧ s.store[image0.firstStore + 0]? = some ⟨0, 0, zeros 32, .good⟩ ∧
       sha256 s.slots[0].data ≠ zeros 32) ∧
    (let s := hashingLine [] (zeros 32)
     s.engine.hashing = some ⟨.line 0 ⟨0, 0⟩ 0, false⟩ ∧ s.segState 0 0 ≠ .failed ∧
       sha256 s.lines[0].data ≠ slice s.slots[0].data (32 * (0 % 128)) 32) ∧
    (let s := hashingBuffer (zeros 32)
     s.live = true ∧ s.fuseImage = some fuses ∧ s.manifest.state = .serving ∧ s.permit.cause = none ∧
       s.images[0]? = some { image0 with verified := 1 } ∧ s.engine.hashing = some ⟨.rescan ⟨0, 0⟩ 0, false⟩ ∧
       s.segState 0 0 = .verified ∧ sha256 s.rescan.data ≠ slice s.slots[0].data (32 * (0 % 128)) 32) := by decide +kernel

/-! ### Options, release and permit -/

/-- The option block with bit 0's counter one short of the debounce count, or not. -/
def sampling (counter : Nat) (mask : Byte) : State := { serving with
  options := { serving.options with counters := serving.options.counters.set 0 counter, eventMask := mask } }

theorem witness_OptionSamplesAreDebounced :
    (State.reset.live = true ∧ State.reset.options.sampled = false) ∧
    (∀ c ∈ [0, 1], ∀ m ∈ [(0x00 : Byte), 0x01], (sampling c m).live = true ∧ (sampling c m).options.sampled = true ∧
      (0x00 : Byte).getLsbD 0 = (sampling c m).options.word.getLsbD 0 ∧
      (0x01 : Byte).getLsbD 0 ≠ (sampling c m).options.word.getLsbD 0 ∧
      (c = 0 → (sampling c m).options.counters[0] + 1 < (sampling c m).options.debounce) ∧
      (c = 1 → (sampling c m).options.debounce ≤ (sampling c m).options.counters[0] + 1) ∧
      ((sampling c m).options.eventMask.getLsbD 0 = (m == 0x01))) ∧
    ({ serving with manifest := { serving.manifest with state := .switching } } : State).isServing = false := by decide +kernel

theorem witness_WordChangeReevaluatesInclusion : let s := sampling 1 0
    (s.live = true ∧ s.options.sampled = true ∧ s.isServing = true ∧ s.lineLru.Nodup ∧
      ∃ k : Fin 8, (0x01 : Byte).getLsbD k ≠ s.options.word.getLsbD k ∧ s.options.debounce ≤ s.options.counters[k] + 1) ∧
    -- the changed bit's event unmasked, and masked
    (∃ k : Fin 8, (0x01 : Byte).getLsbD k ≠ s.options.word.getLsbD k ∧ s.options.debounce ≤ s.options.counters[k] + 1 ∧
      s.options.eventMask.getLsbD k = false) ∧
    (let s := sampling 1 1
     ∀ k : Fin 8, (0x01 : Byte).getLsbD k ≠ s.options.word.getLsbD k → s.options.debounce ≤ s.options.counters[k] + 1 →
      s.options.eventMask.getLsbD k = true) := by decide +kernel

/-- A change that includes an image not yet COMPLETE ends a GRANTED permit: the fall begins at PL0, PL1 and PL2 having fall
delays of 0. A change that excludes the only such image begins the rise. -/
theorem test_word_change_moves_the_permit :
    (let s : State := { sampling 1 0 with
        images := [{ image0 with included := false, conditions := [⟨0, .set⟩] }], permitRequest := true }
     after (.optionSample 1) { s with permit := { s.permit with state := .granted, lines := ⟨.active, .active, .active⟩ } }
       (fun t => (t.permit.state, t.permit.lines, t.permit.timer)) =
         some (.falling, ⟨.active, .inactive, .inactive⟩, some ⟨.pl0, 3⟩)) ∧
    (let s : State := { sampling 1 0 with images := [image0], permitRequest := true }
     after (.optionSample 1) s (fun t => (t.permit.state, t.permit.timer)) = some (.rising, some ⟨.pl0, 1⟩)) := by decide +kernel

theorem witness_HoldExpiryJudgesThePort :
    ∀ u ∈ [PortUnit.cleared, { PortUnit.cleared with state := .rebooting }],
      let s : State := { serving with portA := u, portB := u }
      s.live = true ∧ (∀ p ∈ [Port.a, .b], (s.port p).state ≠ .released ∧ (s.port p).holdServed = false) := by decide +kernel

/-- A permit sequence under way, its delays given. -/
def sequencing (x : PermitState) (l : PermitLine) (d : Delays) (request : Bool) : State := { eligible with
  permitRequest := request
  permit := { serving.permit with
    state := x, lines := ⟨.active, .active, .inactive⟩, delays := some d, timer := some ⟨l, 1⟩ } }

/-- Each clause of `PermitFollows` has its premises met: wanted with the first delay at PL0 and with none, and not wanted with lines
active and with none. -/
theorem witness_PermitFollows : (eligible.permitWanted eligible.permit ∧ ¬ serving.permitWanted serving.permit) ∧
    (eligible.permit.state = .withheld ∧ eligible.permit.delays = some delays ∧ (∀ k ∈ PermitLine.pl0.before,
      delays.rise.get k = 0) ∧ delays.rise.get .pl0 ≠ 0) ∧
    (let d : Delays := ⟨⟨0, 0, 0⟩, ⟨0, 0, 0⟩⟩
     ∀ k ∈ [PermitLine.pl0, .pl1, .pl2], d.rise.get k = 0 ∧ d.fall.get k = 0) ∧
    (∀ x ∈ [PermitState.rising, .granted], let c := { serving.permit with state := x, lines := ⟨.active, .active, .inactive⟩ }
      c.state = x ∧ c.delays = some delays ∧ c.lines.get .pl0 = .active ∧ delays.fall.get .pl0 ≠ 0 ∧
        ∀ k ∈ [PermitLine.pl0, .pl1, .pl2], c.lines.get k = .active → PermitLine.pl0 ∈ k.before → delays.fall.get k = 0) ∧
    (∀ k ∈ [PermitLine.pl0, .pl1, .pl2], serving.permit.lines.get k ≠ .active) := by
  refine ⟨⟨?_, ?_⟩, by decide +kernel, by decide +kernel, by decide +kernel, by decide +kernel⟩ <;>
    unfold State.permitWanted <;> decide +kernel

theorem witness_PermitLinesStepThroughTheirDelays :
    (∀ l ∈ [PermitLine.pl0, .pl1, .pl2], ∀ d ∈ [delays, ⟨⟨1, 1, 1⟩, ⟨1, 1, 1⟩⟩, ⟨⟨0, 0, 0⟩, ⟨0, 0, 0⟩⟩],
      ∀ x ∈ [PermitState.rising, .falling], ∀ r ∈ [true, false], let s := sequencing x l d r
      s.live = true ∧ s.permit.state = x ∧ s.permit.timer = some ⟨l, 1⟩ ∧ s.permit.delays = some d ∧ s.mayRise = r) := by
  decide +kernel

/-! ### Frames and queues -/

theorem witness_FallOfChipSelectBindsTheHead :
    (∀ x ∈ [PortState.held, .rebooting], let s : State := { serving with portA := { PortUnit.cleared with state := x } }
      s.live = true ∧ (s.port .a).frameLive = false ∧ (s.port .a).queue.length ≤ 4 ∧ (s.port .a).state ≠ .released) ∧
    ∀ e ∈ [readEntry 5 [] none, readEntry 5 [] (some .denied)], ∀ n ∈ [0, 1, 4],
      let s : State := { serving with portB := { released with queue := List.replicate n e } }
      s.live = true ∧ (s.port .b).frameLive = false ∧ (s.port .b).queue.length ≤ 4 ∧ (s.port .b).state = .released ∧
        s.readyLine .b = (n != 0 && e.status.isSome) := by decide +kernel

/-- A frame commanded whole, and one that runs, are both taken. -/
theorem takes_whole : serving.takesFrame .a ⟨true, 0x04, none, false, none⟩ :=
  ⟨rfl, .inr ⟨rfl, by decide, by decide, by decide +kernel⟩⟩
theorem takes_running (s : State) (f : SpiFrame) (h : f.live = true) (r : s.portA.frame = some f) : s.takesFrame .a f :=
  ⟨h, .inl r⟩

/-- Port A with a frame running on it and a queue. -/
def framed (f : SpiFrame) (q : List Entry) : State := { serving with portA := { released with queue := q, frame := some f } }

theorem witness_IgnoredMalformedAndOverrunFrames :
    (endsFrame .a (.status .a) ∧ (framed ⟨false, 0, none, false, none⟩ []).portA.frame = some ⟨false, 0, none, false, none⟩) ∧
    (State.reset.portA.frame = none ∧ State.reset.portA.state ≠ .released) ∧
    (serving.takesFrame .a ⟨true, 0x04, none, false, none⟩ ∧ parseFrame (wholeBytes (bitsOf [0x01, 0x22])) = none) ∧
    -- a frame cut short, and what it would have been sent
    ((framed ⟨false, 0x14, none, false, some (3, [0x00, 0x0F, 0x00, 0x00])⟩ []).portA.frame =
      some ⟨false, 0x14, none, false, some (3, [0x00, 0x0F, 0x00, 0x00])⟩ ∧ endsFrame .a (.collect .a 5) ∧
      ∀ n, Instr.status .a ≠ .collect .a n) ∧
    (let s := framed (running none) (List.replicate 4 (readEntry 5 [] none))
     s.takesFrame .a (running none) ∧ s.portA.queue.length = 4) :=
  ⟨⟨rfl, rfl⟩, ⟨rfl, by decide⟩, ⟨takes_whole, by decide⟩, ⟨rfl, rfl, fun _ h => (by cases h)⟩,
    takes_running _ _ rfl rfl, rfl⟩

theorem witness_FramesStayOnTheirPort : endsFrame .a (.reboot .a) ∧ endsFrame .b (.collect .b 1) ∧
    (∃ t, exec (.reboot .a) serving = .next t) ∧ ∃ t, exec (.collect .b 1) serving = .next t :=
  ⟨rfl, rfl, ⟨_, rfl⟩, ⟨_, rfl⟩⟩

theorem window0 (x : Nat) (h : x < 8192) : serving.windowHolds .a x 0 image0 :=
  ⟨rfl, rfl, Nat.zero_le x, by simpa [image0] using h, fun j _ h => absurd h (Nat.not_lt_zero j)⟩

/-- The part with image 0 excluded, or with one of its segments FAILED. -/
def excluded : State := { serving with images := [{ image0 with included := false }, image1] }
def failing : State := { serving with segMap := [[.failed, .unverified], []] }

theorem witness_ReadsRefusedAndFailed :
    (serving.takesFrame .a ⟨true, 0x04, none, false, none⟩ ∧ serving.portA.queue.length < 4) ∧
    -- the first address above image 0's window, which Port B's image does not reach
    (∀ im ∈ serving.images, im.owner.sees .a = true → 8192 < im.windowBase ∨ im.windowBase + im.windowSpan ≤ 8192) ∧
    (excluded.windowHolds .a 0 0 { image0 with included := false } ∧ excluded.windowHolds .a 8191 0 { image0 with included := false }) ∧
    (failing.windowHolds .a 4095 0 image0 ∧ image0.included = true ∧
      ∃ q ∈ image0.pieces 4095 (image0.deliveredLength 4095 (min 2 8192)), failing.segState 0 q.segment = .failed) ∧
    (let s : State := { serving with store := [⟨0, 0, [], .failed⟩] }
     s.blockFailed 0 (0 / 128) = true ∧ ∀ k : Fin 64, s.lines[k].tag = some ⟨0, 0⟩ → s.lines[k].state ≠ .valid) :=
  ⟨⟨takes_whole, by decide⟩, by decide +kernel,
    ⟨⟨rfl, rfl, by decide, by decide, fun j _ h => absurd h (Nat.not_lt_zero j)⟩,
      ⟨rfl, rfl, by decide, by decide, fun j _ h => absurd h (Nat.not_lt_zero j)⟩⟩,
    ⟨⟨rfl, rfl, by decide, by decide, fun j _ h => absurd h (Nat.not_lt_zero j)⟩, rfl, by decide +kernel⟩, by decide +kernel⟩

/-- Image 0 reading four segments ahead; a list with room for one of them, or full. -/
def readingAhead (n : Nat) : State := { serving with
  images := [{ image0 with readAhead := 4 }, image1], arbiter := ⟨.a, List.replicate n ⟨1, 0, .b⟩, 0, 0⟩ }

theorem witness_ReadHoldsItsSegments :
    (∀ n ∈ [0, 7, 8], (readingAhead n).windowHolds .a 0 0 { image0 with readAhead := 4 }) ∧
    (∀ n ∈ [0, 7, 8], (readingAhead n).arbiter.readAhead.length = n ∧
      ∀ q ∈ image0.pieces 0 1, (readingAhead n).lookupFails 0 q.segment = false) ∧
    (serving.takesFrame .a ⟨true, 0x04, none, false, none⟩ ∧ serving.portA.queue.length < 4) ∧
    (∀ x ∈ [0, 8191], serving.windowHolds .a x 0 image0) ∧ image0.included = true ∧ image0.windowMode = .linear ∧
    (min (min 9000 8192) (image0.segments * 4096 - (8191 - image0.windowBase)) = 1) ∧
    (∀ q ∈ image0.pieces 8191 1, serving.lookupFails 0 q.segment = false) ∧
    -- the MIRROR image of Port B at the last address of its span
    serving.windowHolds .b 81919 1 image1 ∧ image1.windowMode = .mirror ∧
    (∀ q ∈ image1.pieces 81919 1, serving.lookupFails 1 q.segment = false) := by
  refine ⟨fun n _ => ⟨rfl, rfl, by decide, by decide, fun j _ h => absurd h (Nat.not_lt_zero j)⟩, by decide +kernel,
    ⟨takes_whole, by decide⟩, ?_, rfl, rfl, by decide, by decide +kernel, ⟨rfl, rfl, by decide, by decide, ?_⟩, rfl, by decide +kernel⟩
  · intro x h
    have : x = 0 ∨ x = 8191 := by simpa using h
    exact window0 x (by omega)
  · intro j im' h e _
    obtain rfl : j = 0 := by omega
    cases e
    exact .inr (by decide)

theorem witness_PiecesCoverTheRead :
    (1 ≤ image0.segments ∧ ∀ x ∈ [0, 8191], image0.windowBase ≤ x ∧ x < image0.windowBase + image0.windowSpan) ∧
    image0.windowSpan = image0.segments * 4096 ∧
    (∀ x ∈ [65536, 81919], image1.windowBase ≤ x ∧ x < image1.windowBase + image1.windowSpan) ∧ image1.windowMode ≠ .linear := by
  decide +kernel

theorem witness_TranslateRecordsTheWindow :
    (serving.takesFrame .a ⟨true, 0x04, none, false, none⟩ ∧ serving.portA.queue.length < 4) ∧ serving.windowHolds .a 8191 0 image0 ∧
    ∀ im ∈ serving.images, im.owner.sees .a = true → 8192 < im.windowBase ∨ im.windowBase + im.windowSpan ≤ 8192 :=
  ⟨⟨takes_whole, by decide⟩, window0 8191 (by decide), by decide +kernel⟩

theorem witness_WriteEraseAndPortAPermitAreJudged :
    (serving.takesFrame .a ⟨true, 0x04, none, false, none⟩ ∧ serving.portA.queue.length < 4 ∧ serving.fuseImage = some fuses) ∧
    -- addresses at the edges of the banks, the recovery region and the device, and pages just kept and just left
    (0x6FFFFF < fuses.bankBytes ∧ fuses.bankBytes ≤ 0x700000 ∧ 0xDFFFFF < fuses.flashBytes - fuses.recoveryBytes ∧
      ¬ 0xE00000 < fuses.flashBytes - fuses.recoveryBytes ∧ ¬ 0x1000000 < fuses.flashBytes) ∧
    (serving.manifest.state = .serving ∧ ∀ r, serving.manifest.summary ≠ some ⟨.bank .bank1, r⟩) ∧
    (¬ 256 < 0x700000 % 256 + (zeros 256).length ∧ 256 < 0x700000 % 256 + (zeros 257).length) ∧ (zeros 256) ≠ [] :=
  ⟨⟨takes_whole, by decide, rfl⟩, by decide +kernel, ⟨rfl, fun r h => (by cases h)⟩, by decide +kernel, by decide +kernel⟩

/-- Port B's request and permit in a state, eligible or not, with the delays given. -/
def permitted (x : PermitState) (w : PerLine Drive) (d : Delays) (ok : Bool) : State :=
  { (if ok then eligible else serving) with permit := { serving.permit with state := x, lines := w, delays := some d } }

theorem takes_whole_b (x w d ok) : ∃ f : SpiFrame, (permitted x w d ok).takesFrame .b f ∧ f.heldExpiry = false := by
  cases ok
  · exact ⟨_, ⟨rfl, .inr ⟨rfl, rfl, rfl, rfl⟩⟩, rfl⟩
  · exact ⟨_, ⟨rfl, .inr ⟨rfl, rfl, rfl, rfl⟩⟩, rfl⟩

theorem witness_PermitFramesOnPortBMoveTheRequest :
    (∀ x w d ok, ∃ f : SpiFrame, (permitted x w d ok).takesFrame .b f ∧ f.heldExpiry = false) ∧
    (∀ x ∈ [PermitState.withheld, .rising, .granted, .falling, .tripped],
      ∀ w ∈ [⟨.active, .active, .active⟩, ⟨.active, .active, .inactive⟩, ⟨.active, .inactive, .inactive⟩,
        (⟨.inactive, .inactive, .inactive⟩ : PerLine Drive)],
      ∀ d ∈ [⟨⟨1, 1, 1⟩, ⟨1, 1, 1⟩⟩, (⟨⟨0, 0, 0⟩, ⟨0, 0, 0⟩⟩ : Delays)], ∀ ok ∈ [true, false], let s := permitted x w d ok
        s.permit.delays = some d ∧ s.permit.state = x ∧ s.permit.lines = w ∧ s.eligible = ok) :=
  ⟨takes_whole_b, by decide +kernel⟩

/-- Port A's head response bound to the running frame. -/
def boundTo (e : Entry) : State := framed (running (some e.id)) [e]

theorem witness_CollectDeliversAndReleases :
    (∀ e : Entry, ∀ x, e.status = some x → (boundTo e).takesFrame .a (running (some e.id)) ∧
      (boundTo e).portA.queue = e :: [] ∧ (running (some e.id)).bound = some e.id ∧ (running (some e.id)).heldExpiry = false) ∧
    -- the bodies and statuses of the clauses
    (∀ x ∈ [RespStatus.ok, .short, .denied, .failed, .badReq], (readEntry 5 [] (some x)).status = some x) ∧
    (∀ w ∈ [none, some ⟨0, true, 0, 0, .linear, .unverified, .free⟩],
      (⟨5, 1, .translate 0 w, some .ok, false⟩ : Entry).body = .translate 0 w) ∧
    -- one pin, on a line VALID or STALE with 1 or 2 pins
    (∀ x ∈ [LineState.valid, .stale], ∀ n ∈ [1, 2], ∀ m ∈ [true, false], ∀ y ∈ [true, false],
      let r : ReadBody := ⟨0, 4096, y, some 0, 4096, false, [⟨0, 0, 4096⟩], [⟨0, .pinned 0⟩]⟩
      let s : State := { boundTo ⟨5, 0x21, .read r, some .ok, false⟩ with
        lines := serving.lines.set 0 { line0 x n [] with streamMark := m } }
      r.holds = [⟨0, .pinned 0⟩] ∧ r.stream = y ∧ s.lines[0].state = x ∧ s.lines[0].pins = n ∧ s.lines[0].streamMark = m) :=
  ⟨fun _ _ _ => ⟨takes_running _ _ rfl rfl, rfl, rfl, rfl⟩, by decide +kernel, by decide +kernel, by decide +kernel⟩

theorem witness_UnboundCollectSendsNone :
    (serving.live = true ∧ serving.portA.state = .released ∧ serving.portA.frameLive = false ∧ serving.portA.queue = []) ∧
    (let s : State := { serving with portA := { released with queue := [readEntry 5 [] none] } }
     s.readyLine .a = false ∧ s.portA.queue ≠ []) ∧
    (let s := framed (running none) [readEntry 5 [] (some .denied)]
     s.takesFrame .a (running none) ∧ (running none).bound = none ∧ (running none).heldExpiry = false ∧ s.readyLine .a = true) :=
  ⟨by decide +kernel, by decide +kernel, takes_running _ _ rfl rfl, rfl, rfl, rfl⟩

theorem witness_StatusFrameClearsReportedFlags :
    (serving.takesFrame .a ⟨true, 0x04, none, false, none⟩) ∧
    (endsFrame .a (.reboot .a) ∧ (Instr.reboot .a) ≠ .status .a ∧
      (∃ t, exec (.reboot .a) { serving with portA := { released with overrun := true, dropped := true, badFrame := true } } =
        .next t)) := ⟨takes_whole, rfl, by decide, ⟨_, rfl⟩⟩

/-- A READ of Port A pinned on line 0 and one waiting on line 1, which is being filled. -/
def holding : State := { framed (running none)
    [readEntry 5 [⟨0, .pinned 0⟩] (some .ok), readEntry 6 [⟨0, .waiting 1⟩] none] with
  lines := (serving.lines.set 0 { line0 .stale 1 [] with data := zeros 4096 }).set 1
    { line0 .filling 0 [⟨.a, 6, [⟨0, 0, 4096⟩]⟩] with data := zeros 4096 } }

theorem witness_RebootEmptiesThePort : (holding.takesFrame .a (running none) ∧ holding.lineLru.Nodup ∧
      holding.lines[1].state = .filling ∧ ∀ e ∈ holding.portA.queue, ∀ h ∈ e.holds, h.hold ≠ .pinned 2 ∧ h.hold ≠ .waiting 2) ∧
    serving.takesFrame .a ⟨true, 0x04, none, false, none⟩ ∧
    (eligible.takesFrame .b ⟨true, 0x84, none, false, none⟩) :=
  ⟨⟨takes_running _ _ rfl rfl, List.nodup_nil, by decide +kernel⟩, takes_whole, rfl,
    .inr ⟨rfl, by decide, by decide, by decide +kernel⟩⟩

/-- A REBOOT of Port B ends a GRANTED permit's request and begins its fall; one of Port A leaves both. -/
theorem test_reboot_moves_the_permit : ∀ p ∈ [Port.a, .b],
    after (.reboot p) { eligible with permit := { serving.permit with state := .granted, lines := ⟨.active, .active, .active⟩ } }
      (fun t => (t.permitRequest, t.permit.state, t.permit.lines, t.permit.timer)) =
    some (match p with
      | .a => (true, .granted, ⟨.active, .active, .active⟩, none)
      | .b => (false, .falling, ⟨.active, .inactive, .inactive⟩, some ⟨.pl0, 3⟩)) := by decide +kernel

theorem witness_CollectWindowDropsOrIsHeld :
    (∀ h ∈ [true, false], ∀ b ∈ [none, some 5], ∀ x ∈ [(readEntry 5 [] (some .denied), RespStatus.denied),
        (readEntry 5 [⟨0, .pinned 0⟩] (some .ok), .ok)], let s := framed ⟨true, 0x30, b, h, none⟩ [x.1]
      s.live = true ∧ s.portA.queue = x.1 :: [] ∧ x.1.status = some x.2 ∧ s.portA.frame = some ⟨true, 0x30, b, h, none⟩ ∧
        ({ s with portA := { s.portA with frame := none } } : State).portA.frameLive = false ∧ s.lineLru.Nodup ∧
        ∀ e' ∈ ([] : List Entry).head?, e'.id ≠ x.1.id) ∧
    -- the end of a STATUS frame takes the held expiry
    (endsFrame .a (.status .a) ∧ (∀ k, Instr.status .a ≠ .collect .a k) ∧ Instr.status .a ≠ .reboot .a ∧
      ∃ v, exec (.status .a) (framed ⟨true, 0x30, some 5, false, none⟩ [readEntry 5 [] (some .denied)]) = .next v) :=
  ⟨by decide +kernel, rfl, fun _ h => (by cases h), by decide, ⟨_, rfl⟩⟩

theorem witness_FrameBytesSpellTheFrame : (∀ tag x data, (PortFrame.read 0 0 0 0) ≠ .write tag x data) ∧
    8 < 9 ∧ (PortFrame.read 0 0 0 0).bytes.length = 9 ∧
    (∀ c ∈ [(0x00 : Byte), 0x05, 0x0F, 0x15, 0xFF], c ∉ ([0x01, 0x02, 0x03, 0x04, 0x10, 0x11, 0x12, 0x13, 0x14] : Bytes) ∧
      parseFrame (wholeBytes (bitsOf [c])) = none) ∧
    (∀ f ∈ [PortFrame.status, .collect, .read 1 2 3 4, .write 5 6 [7]], wholeBytes (bitsOf f.bytes) = f.bytes ∧
      wholeBytes (bitsOf f.bytes ++ [true]) = f.bytes) ∧ 0 < (bitsOf [0x11]).length / 8 ∧ 7 < 8 :=
  ⟨fun _ _ _ h => (by cases h), by decide, by decide, by decide +kernel, by decide +kernel, by decide, by decide⟩

/-! ### Service port, fuse commands, restarts and invariants -/

theorem witness_PointerAndReadTransactions : serving.live = true ∧
    (∀ x ∈ [(0, 0x58), (3, 0x5B)], let s : State := { serving with service := { serving.service with straps := x.1 } }
      (x.2 : BitVec 7).toNat = 0x58 + s.service.straps.toNat) ∧
    (0x57 : BitVec 7).toNat ≠ 0x58 + serving.service.straps.toNat ∧ (0x7F : Byte) = 0x7F ∧ (0xFF : Byte) ≠ 0x7F ∧
    -- a transaction that runs, in a record's middle, at its last byte, and where no record is; with and without a capture
    (∀ p ∈ [(0x09 : BitVec 7), 0x0F, 0x50], ∀ c ∈ [none, some (Record.status, zeros 15)],
      let s : State := { serving with service := { serving.service with transaction := .reading, pointer := p, capture := c } }
      s.live = true ∧ s.service.transaction = .reading ∧ s.service.capture = c ∧
        (p ≠ 0x50 → recordAt s.service.pointer.toNat = some .status) ∧ (p = 0x50 → recordAt s.service.pointer.toNat = none)) ∧
    recordAt (stepPointer true 0x09).toNat = some .status ∧ recordAt (stepPointer true 0x0F).toNat ≠ some .status ∧
    serving.service.transaction ≠ .reading ∧ serving.service.transaction = .none := by decide +kernel

theorem witness_RecordBytesShowTheState : serving.rescan.debt ≤ 8 ∧ (rescanning 8 0).rescan.debt ≤ 8 ∧
    serving.permit.cause = none ∧ State.reset.fuseImage = none ∧ serving.fuseImage = some fuses ∧
    (let c : TripCause := ⟨15, .rescan, 8191⟩
     c.image < 16 ∧ c.index < 8192) ∧
    (let s : State := { serving with service := { serving.service with select := 15 } }
     s.images[s.service.select]? = none) ∧
    (serving.images[serving.service.select]? = some image0 ∧ image0.name.length = 8 ∧ image0.segments ≤ 8192 ∧
      image0.verified ≤ 8192 ∧ failureIndex image0.failure ≤ 8192) ∧
    (∀ e ∈ [PeriodEvent.imageComplete, .rescanPass], serving.service.period e ≤ 3) ∧ serving.service.select ≤ 15 ∧ implemented 0x28 = false := by decide +kernel

theorem witness_RecordWritesTakeEffect :
    (∀ p ∈ [(0x30 : BitVec 7), 0x12, 0x13, 0x14, 0x11, 0x18, 0x15, 0x00, 0x7F], let s := at' p serving
      s.live = true ∧ s.service.transaction = .writing ∧ s.service.pointer = p) ∧
    (∀ p ∈ [(0x00 : BitVec 7), 0x7F], p ∉ ([0x11, 0x12, 0x13, 0x14, 0x15, 0x18, 0x19, 0x30] : List (BitVec 7))) ∧
    ∀ x ∈ [Transaction.candidate 0, .candidate 1, .candidate 2, .abandoned],
      ({ serving with service := { serving.service with transaction := x } } : State).service.transaction = x := by decide +kernel

theorem witness_PeriodCountersFollowTheTable :
    (∀ x ∈ [(0, 0), (0, 1), (1, 1), (0, 3), (2, 3), (3, 3)], ∀ fl ∈ [(0x00 : Byte), 0x02],
      let v : ServicePort := { serving.service with imageCounter := x.1, imagePeriod := x.2, flags := fl, transaction := .writing, pointer := 0x11 }
      v.counter .imageComplete ≤ v.period .imageComplete ∧ v.period .imageComplete ≤ 3 ∧
        v.counter .imageComplete = x.1 ∧ v.period .imageComplete = x.2 ∧
        v.flag (periodFlag .imageComplete) = (fl == 0x02) ∧
        ({ serving with service := v } : State).live = true) ∧
    (0x02 : Byte).getLsbD (periodFlag .imageComplete).bit = true ∧ addrPeriod .imageComplete = 0x13 := by decide +kernel

/-- A command write may come: the pointer is at the code field and the fuse controller IDLE. -/
theorem witness_FloorAdvanceIsJudged :
    (∀ s ∈ [at' 0x19 (starting .flashWait .idle), at' 0x19 serving, at' 0x19 eligible],
      s.live = true ∧ s.service.transaction = .writing ∧ s.service.pointer = 0x19 ∧ s.fuseController = .idle) ∧
    (starting .flashWait .idle).manifest.state ≠ .serving ∧
    (let s : State := { serving with permit := { serving.permit with cause := some ⟨0, .segment, 0⟩ } }
     s.manifest.state = .serving ∧ s.permit.cause ≠ none) ∧
    (serving.permit.cause = none ∧ ¬ ∀ im ∈ serving.images, im.included = true → im.state = .complete) ∧
    ((∀ im ∈ eligible.images, im.included = true → im.state = .complete) ∧ eligible.fuseImage = some fuses ∧
      eligible.manifest.summary = some ⟨.bank .bank0, some ⟨3, 1⟩⟩ ∧ fuses.floor.toList.count true < 3 ∧ 3 ≤ 32) ∧
    (let s : State := { eligible with manifest := { eligible.manifest with summary := some ⟨.bank .bank0, some ⟨1, 1⟩⟩ } }
     s.manifest.summary = some ⟨.bank .bank0, some ⟨1, 1⟩⟩ ∧ 1 ≤ fuses.floor.toList.count true) := by decide +kernel

theorem witness_RevokeSlotAndOtherCommands :
    (∀ n ∈ [(0 : Byte), 1, 3, 4], let s := at' 0x19 { serving with service := { serving.service with argument := n } }
      s.live = true ∧ s.service.transaction = .writing ∧ s.service.pointer = 0x19 ∧ s.fuseController = .idle ∧
        s.manifest.state = .serving ∧ s.fuseImage = some fuses ∧
        s.manifest.summary = some ⟨.bank .bank0, some ⟨3, 1⟩⟩ ∧ s.service.argument = n) ∧
    4 ≤ (4 : Byte).toNat ∧ fuses.revoked[3] = true ∧ fuses.revoked[0] = false ∧
    (at' 0x19 (starting .flashWait .idle)).manifest.state ≠ .serving ∧
    (let s := at' 0x19 { serving with fuseController := .burningRevoke 2 }
     s.live = true ∧ s.service.transaction = .writing ∧ s.service.pointer = 0x19 ∧ s.fuseController ≠ .idle) ∧
    (0x00 : Byte) ≠ 0xA1 ∧ (0x00 : Byte) ≠ 0xA2 := by decide +kernel

theorem witness_FuseBurnsComplete :
    (∀ x ∈ [VerifierState.serving, .recoveryServing], ∀ target ∈ [2, 3, 32],
      let s : State := { serving with fuseController := .burningFloor 1 target, manifest := { serving.manifest with state := x } }
      s.live = true ∧ s.service.pendingRestart = false ∧ s.fuseController = .burningFloor 1 target ∧
        s.fuseImage = some fuses ∧ target ≤ 32 ∧ s.manifest.state = x ∧ s.fuseArray.floor[1] ≠ .burned ∧
        (target ≤ (fuses.floor.set 1 true).toList.count true ↔ target = 2)) ∧
    (let s : State := { serving with fuseController := .burningRevoke 2 }
     s.live = true ∧ s.service.pendingRestart = false ∧ s.fuseController = .burningRevoke 2 ∧ s.fuseImage = some fuses ∧
       s.fuseArray.revoke[2] ≠ .burned) := by decide +kernel

theorem witness_RestartsEnterStarting :
    -- a held restart at the end of either fuse command, which ends or goes on, and a frame that runs
    (∀ c ∈ [FuseController.burningRevoke 2, .burningFloor 1 2, .burningFloor 1 3, .burningFloor 1 32],
      ∀ x ∈ [VerifierState.serving, .switching], let s : State := { serving with
        fuseController := c, manifest := { serving.manifest with state := x }
        portA := { released with frame := some (running none) }
        service := { serving.service with pendingRestart := true } }
      s.live = true ∧ s.service.pendingRestart = true ∧ s.fuseController = c ∧ s.fuseImage = some fuses ∧
        s.manifest.state = x ∧ s.portA.frame = some (running none) ∧ (running none).live = true) ∧
    ((fuses.floor.set 1 true).toList.count true = 2 ∧ 2 ≤ 2 ∧ 2 < 3 ∧ 32 ≤ 32) ∧
    (∀ c ∈ [FuseController.idle, .burningRevoke 2], ∀ op ∈ [FlashOp.idle, .resetting .idle],
      let s : State := { serving with
        flash := ⟨op, []⟩, fuseController := c
        service := { serving.service with transaction := .candidate 2, pendingRestart := true } }
      s.live = true ∧ s.service.transaction = .candidate 2 ∧ s.service.pendingRestart = true ∧ s.fuseController = c ∧
        s.flash.op = op) := by decide +kernel

/-- Every invariant has a state that meets it: reset's proof is a statement of its own, and these are the premises on it that
the step statements share. -/
theorem witness_StepsKeepStartOrderAndPorts : StartOrder State.reset ∧ PortSafe State.reset .a ∧
    ∃ t, step { State.reset with pending := [.flashReadyPollDone 0] } = .next t :=
  ⟨⟨fun _ => rfl, fun _ => rfl⟩, ⟨fun h => (by cases h), fun _ => rfl, fun h => (by cases h)⟩, ⟨_, rfl⟩⟩

/-- The permit GRANTED in `eligible`. -/
def granted : State := { eligible with permit := { serving.permit with state := .granted, lines := ⟨.active, .active, .active⟩ } }

theorem witness_StepsKeepThePermitSafe : StartOrder granted ∧ PermitSafe granted ∧ CountsAgree granted ∧
    granted.permit.state = .granted ∧ ∃ t, step { granted with pending := [.permitOff .b] } = .next t := by
  refine ⟨⟨fun h => (by cases h), fun h => (by rcases h with h | h | h <;> cases h)⟩, ?_, ⟨rfl, ?_⟩, rfl, ⟨_, rfl⟩⟩
  · exact ⟨by decide +kernel, fun h => (by rcases h with h | h <;> cases h), fun l _ k _ => (by cases k <;> rfl),
      fun _ => ⟨fun l => (by cases l <;> rfl), by decide +kernel⟩, fun h => (by cases h), fun h => (by cases h), fun _ _ => rfl⟩
  · intro i im m hi hm
    match i with
    | 0 => cases hi; cases hm; decide +kernel
    | i + 1 => simp [granted, eligible] at hi

theorem witness_StepsKeepFusesAndFloor :
    let s : State := { eligible with
      fuseController := .burningFloor 1 3, fuseArray := { FuseArray.unburned with
        floor := FuseArray.unburned.floor.set 0 .burned, revoke := FuseArray.unburned.revoke.set 3 .burned } }
    StartOrder s ∧ FuseSafe s ∧ s.fuseArray.floor[0] = .burned ∧ s.fuseArray.revoke[3] = .burned ∧ s.fuseImage = some fuses ∧
      ∃ t, step { s with pending := [.fuseBurnCompletion true] } = .next t := by
  refine ⟨⟨fun h => (by cases h), fun h => (by rcases h with h | h | h <;> cases h)⟩, ⟨fun _ => rfl, fun h => (by cases h), ?_, ?_, ?_, ?_⟩,
    rfl, rfl, rfl, ⟨_, rfl⟩⟩
  · intro k target h
    cases h
    exact ⟨fuses, rfl, by decide +kernel⟩
  · intro k h
    cases h
  · intro f h
    cases h
    decide +kernel
  · intro f h
    cases h
    decide +kernel

theorem witness_StepsKeepBoundsAndCounts : WithinBounds granted ∧
    (∃ t, step { granted with pending := [.flashGrant] } = .next t) ∧
    ∀ x ∈ pinnedOns, WithinBounds (pinnedOn x) ∧ PinsAgree (pinnedOn x) := by
  refine ⟨⟨by decide, by decide, by decide, by decide, by decide, by decide, by decide, by decide,
    fun e => (by cases e <;> decide), by decide⟩, ⟨_, rfl⟩, fun x hx => ⟨?_, pinnedOn_agrees x hx⟩⟩
  have hq : ∀ x ∈ pinnedOns, (pinnedOn x).portA.queue.length ≤ 4 := by decide +kernel
  have hc : ∀ x ∈ pinnedOns, ∀ e ∈ [PeriodEvent.imageComplete, .rescanPass],
      (pinnedOn x).service.counter e ≤ (pinnedOn x).service.period e ∧ (pinnedOn x).service.period e ≤ 3 := by decide +kernel
  exact ⟨Nat.zero_le 3, by show 2 ≤ 16; decide, by show 2 ≤ 128; decide, Nat.zero_le 8, by show 2 ≤ 8; decide, hq x hx,
    Nat.zero_le 4, Nat.zero_le 15, fun e => hc x hx e (by cases e <;> decide), by show 4 ≤ 256; decide⟩

theorem pinnedOn_block (x : Image × Bool × Bytes) (h : x.1.firstStore = 0) : (pinnedOn x).provenBlock ⟨0, 0⟩ x.2.2 := by
  refine ⟨⟨0, 0, sha256 x.2.2, .good⟩, ?_, rfl⟩
  show (some x.1).bind (fun im => (pinnedOn x).store[im.firstStore + 0]?) = _
  rw [Option.bind_some, h]
  rfl

theorem pinnedOn_proven (x : Image × Bool × Bytes) (hx : x ∈ pinnedOns) (h : slice x.2.2 0 32 = sha256 (zeros 4096)) :
    ProvenCopies (pinnedOn x) := by
  have key : ∀ x ∈ pinnedOns, x.1.firstStore = 0 ∧ (∀ n : Fin 8, (pinnedOn x).slots[n].state = .valid → n = 0) ∧
      ∀ n : Fin 64, (pinnedOn x).lines[n].state = .valid ∨ (pinnedOn x).lines[n].state = .stale → n = 3 := by decide +kernel
  obtain ⟨k1, k2, k3⟩ := key x hx
  have hb := pinnedOn_block x k1
  refine ⟨?_, ?_, fun u a h => (by cases h), ?_, fun u v _ h => (by cases h), ?_, ?_, fun h => (by cases h),
    fun h => (by cases h)⟩
  · intro n t h ht
    obtain rfl := k2 n h
    obtain rfl : t = ⟨0, 0⟩ := by cases ht; rfl
    exact hb
  · intro n t hn ht
    obtain rfl := k3 n hn
    obtain rfl : t = ⟨0, 0⟩ := by cases ht; rfl
    exact ⟨x.2.2, hb, h.symm⟩
  · intro u h _
    rcases h with h | h
    · cases h
      exact trivial
    · cases h
  · intro o h k hk
    obtain rfl : o = .rescan ⟨0, 0⟩ 0 := by
      have : (pinnedOn x).liveUnits = [.rescan ⟨0, 0⟩ 0] := rfl
      rw [this] at h
      exact List.mem_singleton.mp h
    cases hk
    exact ⟨rfl, rfl⟩
  · exact fun k => Nat.le_of_eq ((pinnedOn_agrees x hx).holds k).symm

/-- The part whose READ of Port A, decided OK, is pinned on a proven copy. -/
theorem witness_StepsKeepCopiesProven : ∃ x : Image × Bool × Bytes, StartOrder (pinnedOn x) ∧ (∀ p, PortSafe (pinnedOn x) p) ∧
    ProvenCopies (pinnedOn x) ∧ PinsAgree (pinnedOn x) ∧ (∃ t, step { pinnedOn x with pending := [.flashGrant] } = .next t) ∧
    ∃ e r, e ∈ ((pinnedOn x).port .a).queue ∧ e.body = .read r ∧ r.image = some 0 ∧ e.status = some .ok ∧ r.pieces ≠ [] := by
  obtain ⟨x, hx, hp, hd⟩ : ∃ x ∈ pinnedOns, x.2.1 = true ∧ slice x.2.2 0 32 = sha256 (zeros 4096) :=
    ⟨provenCase, .tail _ (.tail _ (.tail _ (.head _))), rfl, slice_provenCase⟩
  have hr : ∀ p, ((pinnedOn x).port p).state = .released ∧ ((pinnedOn x).port p).frameLive = false := fun p => by
    cases p <;> exact ⟨rfl, rfl⟩
  have hq : readEntry 5 [⟨0, .pinned 3⟩] (some .ok) ∈ ((pinnedOn x).port .a).queue := by
    show _ ∈ (if x.2.1 = true then [readEntry 5 [⟨0, .pinned 3⟩] (some .ok)] else [])
    rw [if_pos hp]
    exact List.mem_singleton.mpr rfl
  exact ⟨x, ⟨fun h => (by cases h), fun h => (by rcases h with h | h | h <;> cases h)⟩,
    fun p => ⟨fun _ => rfl, fun h => absurd (hr p).1 h, fun _ => (hr p).1⟩, pinnedOn_proven x hx hd,
    pinnedOn_agrees x hx, ⟨_, rfl⟩, ⟨_, _, hq, rfl, rfl, rfl, by decide⟩⟩

end Sys2Proof.Tests
end

section
/-! The fuses: what each command does to the fuse array, the fuse image and the fuse controller, and that every step keeps
`FuseSafe` and the rollback floor (01_flash_regions_fuses_and_the_rollback_floor.md). -/

namespace Sys2Proof.Machine

/-! ## Single fuses -/

theorem vector_set_get {α : Type} {n : Nat} (v : Vector α n) (k j : Fin n) (x : α) :
    (v.set k x)[j] = if j = k then x else v[j] := by
  by_cases h : j = k
  · subst h
    simp
  · have : (k : Nat) ≠ j := fun e => h (Fin.ext e.symm)
    simp [h, this]

/-- Floors are counted fuse by fuse: one that reads burned wherever another does is no lower (R8). -/
theorem floor_count_mono {v w : Vector Bool 32} (h : ∀ k : Fin 32, v[k] = true → w[k] = true) :
    v.toList.count true ≤ w.toList.count true := by
  have key : ∀ u : Vector Bool 32, u.toList.count true = (List.finRange 32).countP fun k => u[k] := by
    intro u
    have : u.toList = (List.finRange 32).map fun k => u[k] := by
      apply List.ext_getElem <;> simp
    rw [this, List.count_eq_countP, List.countP_map]
    congr 1
    funext k
    simp
  rw [key, key]
  exact List.countP_mono_left fun k _ => h k

theorem floor_count_le (v : Vector Bool 32) : v.toList.count true ≤ 32 := by
  simpa using List.count_le_length (a := true) (l := v.toList)

@[simp] theorem FuseCell.burned_unsettle (n : Nat) : FuseCell.burned.unsettle n = .burned := rfl

theorem FuseCell.unsettle_of_ne {c : FuseCell} (h : c ≠ .burned) (n : Nat) : c.unsettle n = .unsettled n := by
  cases c with
  | burned => exact absurd rfl h
  | unburned => rfl
  | unsettled _ => rfl

/-! ## Burns that complete or are cut off -/

/-- The state of a fuse after its burn, by the read-back `good` (R6). -/
def FuseCell.settle (c : FuseCell) (good : Bool) (n : Nat) : FuseCell := if good then .burned else c.unsettle n

@[simp] theorem FuseCell.burned_settle (good : Bool) (n : Nat) : FuseCell.burned.settle good n = .burned := by
  cases good <;> rfl

theorem State.settleFloor_array (s : State) (k : Fin 32) (good : Bool) : (s.settleFloor k good).fuseArray =
    { s.fuseArray with floor := s.fuseArray.floor.set k (s.fuseArray.floor[k].settle good s.nextFree) } := by
  cases good <;> rfl

theorem State.settleFloor_image (s : State) (k : Fin 32) (good : Bool) : (s.settleFloor k good).fuseImage =
    if good then s.fuseImage.map fun f => { f with floor := f.floor.set k true } else s.fuseImage := by
  cases good <;> rfl

theorem State.settleRevoke_array (s : State) (k : Fin 4) (good : Bool) : (s.settleRevoke k good).fuseArray =
    { s.fuseArray with revoke := s.fuseArray.revoke.set k (s.fuseArray.revoke[k].settle good s.nextFree) } := by
  cases good <;> rfl

theorem State.settleRevoke_image (s : State) (k : Fin 4) (good : Bool) : (s.settleRevoke k good).fuseImage =
    if good then s.fuseImage.map fun f => { f with revoked := f.revoked.set k true } else s.fuseImage := by
  cases good <;> rfl

/-- A cut burn leaves its fuse as a failed read-back does, and every fuse where none runs (R6, R10, R16). -/
theorem State.cutBurn_array (s : State) : s.cutBurn.fuseArray =
    match s.fuseController with
    | .idle => s.fuseArray
    | .burningFloor k _ => (s.settleFloor k false).fuseArray
    | .burningRevoke k => (s.settleRevoke k false).fuseArray := by
  unfold State.cutBurn
  split <;> simp [*] <;> rfl

@[simp] theorem State.cutBurn_idle (s : State) : s.cutBurn.fuseController = .idle := by
  unfold State.cutBurn
  split <;> simp [*]

/-! ## What a step can do to the fuses -/

/-- The fuses stand from `s` to `t`, and the verifier state moves at most from one with a fuse image held to one outside
STARTING. -/
structure FusesStand (s t : State) : Prop where
  array : t.fuseArray = s.fuseArray
  image : t.fuseImage = s.fuseImage
  controller : t.fuseController = s.fuseController
  verifier : t.manifest.state = s.manifest.state ∨ t.manifest.state ≠ .starting ∧ s.fuseImage.isSome = true

theorem FusesStand.refl (s : State) : FusesStand s s := ⟨rfl, rfl, rfl, .inl rfl⟩

theorem FusesStand.trans {s t u : State} (h : FusesStand s t) (g : FusesStand t u) : FusesStand s u := by
  refine ⟨g.array.trans h.array, g.image.trans h.image, g.controller.trans h.controller, ?_⟩
  rcases g.verifier with e | ⟨e, i⟩
  · rw [e]
    exact h.verifier
  · exact .inr ⟨e, h.image ▸ i⟩

/-- The form in which the frame lemmas give it, for an operation that leaves the verifier state. -/
theorem FusesStand.of_frame {s t : State} (h : t.fuseArray = s.fuseArray ∧ t.fuseImage = s.fuseImage ∧
    t.fuseController = s.fuseController ∧ t.manifest.state = s.manifest.state) : FusesStand s t :=
  ⟨h.1, h.2.1, h.2.2.1, .inl h.2.2.2⟩

theorem FusesStand.when {s t : State} {c : Bool} (h : FusesStand s t) : FusesStand s (s.when c t) := by
  cases c
  · exact .refl s
  · exact h

theorem FusesStand.ite {s t u : State} {c : Prop} [Decidable c] (h : FusesStand s t) (g : FusesStand s u) :
    FusesStand s (if c then t else u) := by
  split
  · exact h
  · exact g

/-! ## Operations that leave the fuses -/

theorem State.enterSwitching_stands (s : State) (h : s.fuseImage.isSome = true) : FusesStand s s.enterSwitching :=
  ⟨by simp, by simp, by simp, .inr ⟨by simp [State.enterSwitching], h⟩⟩

theorem State.autoRecoveryCheck_stands (s : State) : FusesStand s s.autoRecoveryCheck := by
  unfold State.autoRecoveryCheck
  split
  · split
    · exact s.enterSwitching_stands (by simp [*])
    · exact .refl s
  · exact .refl s

theorem State.failImage_stands (s : State) (c : TripCause) (mid : State → State) (h : ∀ w, FusesStand w (mid w)) :
    FusesStand s (s.failImage c mid) := by
  unfold State.failImage
  split
  · exact h s
  · split
    · exact h s
    · have hmod (f) : FusesStand s (s.modImage c.image f) := .of_frame (by simp)
      have htrip (w : State) : FusesStand w ((w.raise .imageFailed).trip c) := .of_frame (by simp)
      exact ((hmod _).trans (h _)).trans ((htrip _).trans (State.autoRecoveryCheck_stands _))

theorem State.compareBlock_stands (s : State) (n : Fin 8) (t : BlockTag) : FusesStand s (s.compareBlock n t) := by
  unfold State.compareBlock
  split
  · exact .of_frame (by simp)
  · unfold State.blockBad
    refine .trans ?_ (State.failImage_stands _ _ _ fun w => .of_frame (by simp))
    exact .of_frame ⟨rfl, rfl, rfl, rfl⟩

theorem State.compareSegment_stands (s : State) (n : Fin 64) (t : SegTag) (k : Fin 8) :
    FusesStand s (s.compareSegment n t k) := by
  unfold State.compareSegment
  split
  · exact .of_frame (by simp)
  · split
    · exact .of_frame (by simp)
    · have hfree : FusesStand s (((s.freeLine n).endHold k).failSegment t.image t.segment) := .of_frame (by simp)
      exact hfree.trans (State.failImage_stands _ _ _ fun w => .of_frame (by simp))

theorem State.compareRescan_stands (s : State) (t : SegTag) (k : Fin 8) : FusesStand s (s.compareRescan t k) := by
  unfold State.compareRescan
  split
  · have hend : FusesStand s (((s.endHold k).emptyBuffer).failSegment t.image t.segment) := .of_frame (by simp)
    exact hend.trans (State.failImage_stands _ _ _ fun w => .of_frame (by simp))
  · exact .of_frame (by simp)

theorem State.reevaluate_stands (s : State) (word : Byte) : FusesStand s (s.reevaluate word) :=
  .of_frame (by simp [State.reevaluate])

/-! ## The walk moves the verifier only while an image is held -/

theorem State.enterLocked_stands (s : State) (c : LockedCause) (h : s.fuseImage.isSome = true) :
    FusesStand s (s.enterLocked c) :=
  ⟨by simp, by simp, by simp, .inr ⟨by simp [State.enterLocked], h⟩⟩

theorem State.beginCandidate_stands (s : State) (f : FuseImage) (src : Source) (h : s.fuseImage.isSome = true) :
    FusesStand s (s.beginCandidate f src) :=
  ⟨by simp, by simp, by simp, .inr ⟨by simp [State.beginCandidate], h⟩⟩

theorem State.nextCandidate_stands (s : State) (f : FuseImage) (b : Bool) (h : s.fuseImage.isSome = true) :
    FusesStand s (s.nextCandidate f b) := by
  unfold State.nextCandidate
  split
  · exact .trans (.of_frame (by simp)) (State.beginCandidate_stands _ _ _ (by simpa using h))
  · split
    · exact s.beginCandidate_stands _ _ h
    · exact s.enterLocked_stands _ h

theorem ManifestUnit.setError_state (m : ManifestUnit) (src : Source) (e : WalkError) : (m.setError src e).state = m.state := by
  unfold ManifestUnit.setError
  split <;> rfl

theorem State.endCandidate_stands (s : State) (f : FuseImage) (src : Source) (e : WalkError)
    (h : s.fuseImage.isSome = true) : FusesStand s (s.endCandidate f src e) := by
  unfold State.endCandidate
  refine .trans ?_ (State.nextCandidate_stands _ _ _ h)
  exact .of_frame ⟨rfl, rfl, rfl, s.manifest.setError_state src e⟩

theorem State.completeWalk_stands (s : State) (src : Source) (b : Bytes) (h : s.fuseImage.isSome = true) :
    FusesStand s (s.completeWalk src b) :=
  ⟨by simp, by simp, by simp, .inr ⟨by cases src <;> simp [State.completeWalk], h⟩⟩

theorem State.walkEntries_stands (f : FuseImage) (src : Source) (n : Nat) (s : State) (h : s.fuseImage.isSome = true) :
    FusesStand s (State.walkEntries f src n s) := by
  refine State.walkEntries_induct f src (FusesStand s) (FusesStand s) (fun _ g => g) ?_ ?_
    (fun t e g _ => g.trans (t.endCandidate_stands f src e (g.image ▸ h)))
    (fun t b g _ => g.trans (t.completeWalk_stands src b (g.image ▸ h))) n s (.refl s)
  · intro t u g e
    rcases t.walkStep_cases f src with
      ⟨_, _, _, _, _, w⟩ | ⟨_, _, _, _, _, _, w⟩ | ⟨_, _, _, _, _, w⟩ | ⟨_, w⟩ | ⟨_, _, _, w⟩ <;> rw [w] at e <;> cases e
    · exact g.trans (.of_frame (by simp))
    · exact g.trans (.of_frame (by simp [State.appendImage]))
  · intro t u g e
    rcases t.walkStep_cases f src with
      ⟨_, _, _, _, _, w⟩ | ⟨_, _, _, _, _, _, w⟩ | ⟨_, _, _, _, _, w⟩ | ⟨_, w⟩ | ⟨_, _, _, w⟩ <;> rw [w] at e <;> cases e
    exact g.trans (.of_frame (by simp))

theorem State.readOrCheck_stands (s : State) (f : FuseImage) (src : Source) (top : Frame) (h : s.fuseImage.isSome = true) :
    FusesStand s (s.readOrCheck f src top) := by
  unfold State.readOrCheck
  split
  · exact .of_frame (by simp [State.readMore])
  · unfold State.checkWhole
    split
    · exact .of_frame (by simp)
    · exact s.endCandidate_stands _ _ _ h

theorem State.judgePart_stands (s : State) (f : FuseImage) (src : Source) (top : Frame) (first : Bool)
    (h : s.fuseImage.isSome = true) : FusesStand s (s.judgePart f src top first) := by
  unfold State.judgePart
  split
  · split
    · split
      · exact s.readOrCheck_stands _ _ _ h
      · exact s.endCandidate_stands _ _ _ h
    · exact s.endCandidate_stands _ _ _ h
    · exact s.endCandidate_stands _ _ _ h
  · exact s.readOrCheck_stands _ _ _ h

/-! ## Commands that leave the fuses -/

section

variable {s t : State}

theorem execFlashReadyPollDone_stands {x : Byte} (h : execFlashReadyPollDone x s = .next t) : FusesStand s t := by
  unfold execFlashReadyPollDone at h
  cases h
  split
  · refine .when ?_
    split
    · exact .of_frame ⟨rfl, rfl, rfl, rfl⟩
    · exact .of_frame ⟨rfl, rfl, rfl, rfl⟩
  · exact .refl s

theorem execFlashReadyLimitExpiry_stands (h : execFlashReadyLimitExpiry s = .next t) : FusesStand s t := by
  unfold execFlashReadyLimitExpiry at h
  cases h
  split
  · exact .when (.of_frame (by simp))
  · exact .refl s

theorem execFlashResetSettleExpiry_stands (h : execFlashResetSettleExpiry s = .next t) : FusesStand s t := by
  unfold execFlashResetSettleExpiry at h
  cases h
  split
  · exact .when (.of_frame ⟨rfl, rfl, rfl, rfl⟩)
  · exact .when (.of_frame ⟨rfl, rfl, rfl, rfl⟩)
  · exact .when (.of_frame (by simp))
  · exact .refl s

theorem execFlashGrant_stands (h : execFlashGrant s = .next t) : FusesStand s t := by
  unfold execFlashGrant at h
  cases h
  split
  · exact .refl s
  · split
    · split
      · exact .of_frame (by simp)
      · exact .refl s
    · split
      · exact .of_frame (by simp)
      · exact .refl s
    all_goals exact .of_frame (by simp)

theorem execFlashReadDone_stands {data : Bytes} (h : execFlashReadDone data s = .next t) : FusesStand s t := by
  unfold execFlashReadDone at h
  cases h
  split
  · split
    · exact .refl s
    · dsimp only
      split
      · exact .of_frame ⟨rfl, rfl, rfl, rfl⟩
      · exact .of_frame (by simp)
  · exact .refl s

theorem execStatusReadDone_stands {x : Byte} (h : execStatusReadDone x s = .next t) : FusesStand s t := by
  unfold execStatusReadDone at h
  cases h
  split
  · refine .when ?_
    split
    · exact .of_frame ⟨rfl, rfl, rfl, rfl⟩
    · exact .of_frame (by simp)
  · exact .refl s

theorem execProgramLimitExpiry_stands (h : execProgramLimitExpiry s = .next t) : FusesStand s t := by
  unfold execProgramLimitExpiry at h
  cases h
  split
  · exact .when (.of_frame (by simp))
  · exact .refl s

theorem execEraseLimitExpiry_stands (h : execEraseLimitExpiry s = .next t) : FusesStand s t := by
  unfold execEraseLimitExpiry at h
  cases h
  split
  · exact .when (.of_frame (by simp))
  · exact .refl s

theorem execRescanTimerExpiry_stands (h : execRescanTimerExpiry s = .next t) : FusesStand s t := by
  cases h
  exact .when (.of_frame ⟨rfl, rfl, rfl, rfl⟩)

theorem State.advanceEngine_stands (s : State) : FusesStand s s.advanceEngine := .of_frame ⟨rfl, rfl, rfl, rfl⟩

theorem execDigestBlockHashDone_stands (h : execDigestBlockHashDone s = .next t) : FusesStand s t := by
  unfold execDigestBlockHashDone at h
  cases h
  split
  · exact s.advanceEngine_stands.trans (State.compareBlock_stands _ _ _)
  · exact s.advanceEngine_stands
  · exact .refl s

theorem execSegmentHashDone_stands (h : execSegmentHashDone s = .next t) : FusesStand s t := by
  unfold execSegmentHashDone at h
  cases h
  split
  · exact s.advanceEngine_stands.trans (State.compareSegment_stands _ _ _ _)
  · exact s.advanceEngine_stands
  · exact .refl s

theorem execRescanHashDone_stands (h : execRescanHashDone s = .next t) : FusesStand s t := by
  unfold execRescanHashDone at h
  cases h
  split
  · exact s.advanceEngine_stands.trans (State.compareRescan_stands _ _ _)
  · exact s.advanceEngine_stands
  · exact .refl s

theorem execSelfCheckJobDone_stands {e : Engine} {good : Bool} (h : execSelfCheckJobDone e good s = .next t) :
    FusesStand s t := by
  unfold execSelfCheckJobDone at h
  cases h
  split
  · split
    · exact .refl s
    · split
      · exact s.enterLocked_stands _ (by simp [*])
      · split
        · exact .of_frame ⟨rfl, rfl, rfl, rfl⟩
        · exact .of_frame (by simp)
  · exact .refl s

theorem ManifestUnit.judgeHeader_state (m : ManifestUnit) (b : Bank) (data : Bytes) :
    (m.judgeHeader b data).state = m.state := by
  unfold ManifestUnit.judgeHeader
  split
  · rfl
  · rfl
  · exact m.setError_state _ _

theorem execHeaderReadDone_stands {data : Bytes} (h : execHeaderReadDone data s = .next t) : FusesStand s t := by
  unfold execHeaderReadDone at h
  cases h
  split
  · rename_i b f _ hf
    split
    · exact .refl s
    · have hj : FusesStand s (s.endWalkRead.modManifest fun m => m.judgeHeader b data) :=
        .of_frame ⟨rfl, rfl, rfl, ManifestUnit.judgeHeader_state _ _ _⟩
      cases b with
      | bank0 => exact hj.trans (.of_frame ⟨rfl, rfl, rfl, rfl⟩)
      | bank1 =>
        refine hj.trans (.trans ?_ (State.nextCandidate_stands _ _ _ ?_))
        · exact .of_frame ⟨rfl, rfl, rfl, rfl⟩
        · simp [hf]
  · exact .refl s

theorem execManifestReadDone_stands {data : Bytes} (h : execManifestReadDone data s = .next t) : FusesStand s t := by
  unfold execManifestReadDone at h
  cases h
  split
  · rename_i hf
    split
    · exact .refl s
    · refine .trans ?_ (State.judgePart_stands _ _ _ _ _ ?_)
      · exact .of_frame ⟨rfl, rfl, rfl, rfl⟩
      · simp [hf]
  · exact .refl s

theorem execSignatureDone_stands {pass : Bool} (h : execSignatureDone pass s = .next t) : FusesStand s t := by
  unfold execSignatureDone at h
  cases h
  split
  · rename_i src top rest f job _ _ hf _
    split
    · exact .refl s
    · have hj : FusesStand s (s.modManifest fun m => { m with signatureJob := none, stack := { top with next := 0 } :: rest }) :=
        .of_frame ⟨rfl, rfl, rfl, rfl⟩
      have hi : s.fuseImage.isSome = true := by simp [hf]
      dsimp only
      split
      · exact hj.trans (State.endCandidate_stands _ _ _ _ hi)
      · split
        · exact hj.trans (State.walkEntries_stands _ _ _ _ hi)
        · exact hj.trans (State.endCandidate_stands _ _ _ _ hi)
  · exact .refl s

theorem execSwitchingTeardown_stands (h : execSwitchingTeardown s = .next t) : FusesStand s t := by
  unfold execSwitchingTeardown at h
  cases h
  split
  · rename_i hf
    refine .when (.trans ?_ (State.beginCandidate_stands _ _ _ ?_))
    · exact .of_frame ⟨rfl, rfl, rfl, rfl⟩
    · simp [hf]
  · exact .refl s

theorem execOptionSample_stands {x : Byte} (h : execOptionSample x s = .next t) : FusesStand s t := by
  unfold execOptionSample at h
  cases h
  split
  · exact .refl s
  · have hsample (c : Prop) [Decidable c] (o : OptionBlock) : FusesStand s
        (if c then ({ s with options := o } : State).raise .optionChange else { s with options := o }) :=
      .ite (.of_frame ⟨rfl, rfl, rfl, rfl⟩) (.of_frame ⟨rfl, rfl, rfl, rfl⟩)
    dsimp only
    split
    · exact (hsample _ _).trans (State.reevaluate_stands _ _)
    · exact hsample _ _

theorem execHoldTimerExpiry_stands {p : Port} (h : execHoldTimerExpiry p s = .next t) : FusesStand s t := by
  cases h
  exact .when (.of_frame (by simp))

theorem execRiseDelayExpiry_stands (h : execRiseDelayExpiry s = .next t) : FusesStand s t := by
  unfold execRiseDelayExpiry at h
  cases h
  split
  · exact .when (.of_frame (by simp))
  · exact .refl s

theorem execFallDelayExpiry_stands (h : execFallDelayExpiry s = .next t) : FusesStand s t := by
  unfold execFallDelayExpiry at h
  cases h
  split
  · exact .when (.of_frame (by simp))
  · exact .refl s

/-! Frames of the ports. -/

theorem State.endFrame_stands (s : State) (p : Port) (sends : SpiFrame → State → Bytes) (effect : SpiFrame → State → State)
    (h : ∀ f u, FusesStand u (effect f u)) : FusesStand s (s.endFrame p sends effect) :=
  State.endFrame_induct (FusesStand s) s p sends effect (.refl s) (fun u f g => g.trans (.of_frame (by simp)))
    (fun f u g => g.trans (h f u)) fun u f g => g.trans (.of_frame (by simp))

theorem State.takeQueued_stands (s : State) (p : Port) (take : State → State) (h : FusesStand s (take s)) :
    FusesStand s (s.takeQueued p take) := by
  rcases s.takeQueued_cases p take with ⟨_, e⟩ | ⟨_, e⟩ <;> rw [e]
  · exact .of_frame (by simp)
  · exact h

theorem execRead_stands {p : Port} {tag : Byte} {a : BitVec 32} {n : BitVec 16} {x : Byte}
    (h : execRead p tag a n x s = .next t) : FusesStand s t := by
  cases h
  exact s.endFrame_stands _ _ _ fun f u => u.takeQueued_stands _ _ (.of_frame (by simp))

theorem execTranslate_stands {p : Port} {tag : Byte} {a : BitVec 32} (h : execTranslate p tag a s = .next t) :
    FusesStand s t := by
  cases h
  exact s.endFrame_stands _ _ _ fun f u => u.takeQueued_stands _ _ (.of_frame (by simp))

theorem execWrite_stands {p : Port} {tag : Byte} {a : BitVec 32} {data : Bytes} (h : execWrite p tag a data s = .next t) :
    FusesStand s t := by
  cases h
  exact s.endFrame_stands _ _ _ fun f u => u.takeQueued_stands _ _ (.of_frame (by simp))

theorem execErase_stands {p : Port} {tag : Byte} {a : BitVec 32} (h : execErase p tag a s = .next t) : FusesStand s t := by
  cases h
  exact s.endFrame_stands _ _ _ fun f u => u.takeQueued_stands _ _ (.of_frame (by simp))

theorem execCollect_stands {p : Port} {n : Nat} (h : execCollect p n s = .next t) : FusesStand s t := by
  cases h
  exact s.endFrame_stands _ _ _ fun f u => .of_frame (by simp)

theorem execStatus_stands {p : Port} (h : execStatus p s = .next t) : FusesStand s t := by
  cases h
  exact s.endFrame_stands _ _ _ fun f u => .of_frame (by simp)

theorem execReboot_stands {p : Port} (h : execReboot p s = .next t) : FusesStand s t := by
  cases h
  exact s.endFrame_stands _ _ _ fun f u => .of_frame (by simp)

theorem execPermitOn_stands {p : Port} (h : execPermitOn p s = .next t) : FusesStand s t := by
  cases h
  refine s.endFrame_stands _ _ _ fun f u => ?_
  cases p
  · exact u.takeQueued_stands _ _ (.of_frame (by simp))
  · exact .of_frame (by simp)

theorem execPermitOff_stands {p : Port} (h : execPermitOff p s = .next t) : FusesStand s t := by
  cases h
  refine s.endFrame_stands _ _ _ fun f u => ?_
  cases p
  · exact u.takeQueued_stands _ _ (.of_frame (by simp))
  · exact .of_frame (by simp)

theorem execMalformedFrame_stands {p : Port} {x : List Bool} (h : execMalformedFrame p x s = .next t) : FusesStand s t := by
  cases h
  exact .when (s.endFrame_stands _ _ _ fun f u => .of_frame (by simp))

theorem execCollectWindowExpiry_stands {p : Port} (h : execCollectWindowExpiry p s = .next t) : FusesStand s t := by
  unfold execCollectWindowExpiry at h
  cases h
  exact .when (.ite (.of_frame (by simp)) (.of_frame (by simp)))

theorem execCsNFall_stands {p : Port} (h : execCsNFall p s = .next t) : FusesStand s t := by
  cases h
  exact .when (.of_frame (by simp))

/-! Transactions of the service port. -/

theorem execSetPointer_stands {a : BitVec 7} {b : Option Byte} (h : execSetPointer a b s = .next t) : FusesStand s t := by
  cases h
  exact .when (.of_frame (by simp))

theorem execReadTransaction_stands {a : Option (BitVec 7)} {n : Nat} (h : execReadTransaction a n s = .next t) :
    FusesStand s t := by
  unfold execReadTransaction at h
  cases h
  refine .when ?_
  split
  · split <;> exact .of_frame (by simp)
  · exact .when (.of_frame (by simp))

theorem State.dataByte_stands (s : State) (p : BitVec 7) (effect : State → State) (h : FusesStand s (effect s)) :
    FusesStand s (s.dataByte p effect) := by
  rcases s.dataByte_cases p effect with ⟨_, e⟩ | ⟨_, e⟩ <;> rw [e]
  · exact .refl s
  · exact h.trans (.of_frame (by simp))

theorem execImageSelectWrite_stands {x : Byte} (h : execImageSelectWrite x s = .next t) : FusesStand s t := by
  cases h
  exact s.dataByte_stands _ _ (.of_frame (by simp))

theorem execClearWrite_stands {x : Byte} (h : execClearWrite x s = .next t) : FusesStand s t := by
  cases h
  exact s.dataByte_stands _ _ (.of_frame (by simp))

theorem execEventMaskWrite_stands {x : Byte} (h : execEventMaskWrite x s = .next t) : FusesStand s t := by
  cases h
  exact s.dataByte_stands _ _ (.of_frame (by simp))

theorem execPeriodWrite_stands {e : PeriodEvent} {x : Byte} (h : execPeriodWrite e x s = .next t) : FusesStand s t := by
  cases h
  exact s.dataByte_stands _ _ (.of_frame (by simp))

theorem execRegisterWrite_stands {x : Byte} (h : execRegisterWrite x s = .next t) : FusesStand s t := by
  unfold execRegisterWrite at h
  cases h
  split
  · exact .refl s
  · exact .refl s
  · split
    · exact .refl s
    · exact s.dataByte_stands _ _ (.of_frame (by simp))
  · exact .when (.of_frame (by simp))

theorem execBadCommand_stands {x : Byte} (h : execBadCommand x s = .next t) : FusesStand s t := by
  cases h
  refine .when (s.dataByte_stands _ _ ?_)
  unfold State.commandWrite
  split <;> exact .of_frame (by simp)

end

/-! ## Commands that move the fuses -/

/-- The lowest floor fuse that reads unburned: it does, and every one below it reads burned (R8). -/
theorem FuseImage.nextFloorFuse_some {f : FuseImage} {k : Fin 32} (h : f.nextFloorFuse = some k) :
    f.floor[k] = false ∧ ∀ j : Fin 32, j < k → f.floor[j] = true := by
  obtain ⟨hk, as, bs, hl, has⟩ := List.find?_eq_some_iff_append.mp h
  refine ⟨by simpa using hk, fun j hj => ?_⟩
  have hsorted : (as ++ k :: bs).Pairwise (· < ·) := hl ▸ List.pairwise_lt_finRange 32
  have hmem : j ∈ as ++ k :: bs := hl ▸ List.mem_finRange j
  rcases List.mem_append.mp hmem with hj' | hj'
  · simpa using has j hj'
  · rcases List.mem_cons.mp hj' with rfl | hj'
    · exact absurd hj (Nat.lt_irrefl _)
    · have := (List.pairwise_cons.mp (List.pairwise_append.mp hsorted).2.1).1 j hj'
      exact absurd hj (Nat.lt_asymm this)

/-- A burn runs only in SERVING, on a fuse that reads unburned in the image (R8, R11, R14). -/
structure BurnStands (t : State) : Prop where
  serving : t.fuseController ≠ .idle → t.manifest.state = .serving
  floor : ∀ k target f, t.fuseController = .burningFloor k target → t.fuseImage = some f → f.floor[k] = false
  revoke : ∀ k f, t.fuseController = .burningRevoke k → t.fuseImage = some f → f.revoked[k] = false

theorem BurnStands.of_idle {t : State} (h : t.fuseController = .idle) : BurnStands t :=
  ⟨fun n => absurd h n, fun _ _ _ e => by simp [h] at e, fun _ _ e => by simp [h] at e⟩

theorem BurnStands.of_floor {t : State} {k : Fin 32} {target : Nat} {f : FuseImage} (h : t.fuseController = .burningFloor k target)
    (hi : t.fuseImage = some f) (hk : f.nextFloorFuse = some k) (hs : t.manifest.state = .serving) : BurnStands t := by
  refine ⟨fun _ => hs, fun j _ g e eg => ?_, fun _ _ e => by simp [h] at e⟩
  cases h.symm.trans e
  cases hi.symm.trans eg
  exact (FuseImage.nextFloorFuse_some hk).1

theorem BurnStands.of_revoke {t : State} {k : Fin 4} (h : t.fuseController = .burningRevoke k) (hk : t.slotRevoked k = false)
    (hs : t.manifest.state = .serving) : BurnStands t := by
  refine ⟨fun _ => hs, fun _ _ _ e => by simp [h] at e, fun j f e ef => ?_⟩
  cases h.symm.trans e
  simpa [State.slotRevoked, ef] using hk

/-- The second state differs from the first in nothing that `BurnStands` reads. -/
theorem BurnStands.congr {s t : State} (h : BurnStands s) (hi : t.fuseImage = s.fuseImage)
    (hc : t.fuseController = s.fuseController) (hm : t.manifest.state = s.manifest.state) : BurnStands t :=
  ⟨by rw [hc, hm]; exact h.serving, by rw [hc, hi]; exact h.floor, by rw [hc, hi]; exact h.revoke⟩

/-- What a step can do to the fuses: nothing; a stop of every block; a load; the judgement of a fuse command or a restart, which keep
array and image; or the completion of a burn. -/
inductive FuseStep (s t : State) : Prop
  | stand (h : FusesStand s t)
  | stop (array : t.fuseArray = s.cutBurn.fuseArray) (image : t.fuseImage = none) (idle : t.fuseController = .idle)
      (starting : t.manifest.state = .starting)
  | load (ready : s.manifest.startStep = some .fuseLoad) (array : t.fuseArray = s.fuseArray)
      (image : t.fuseImage = some s.fuseArray.load) (controller : t.fuseController = s.fuseController)
      (verifier : t.manifest.state = s.manifest.state)
  | judged (array : t.fuseArray = s.fuseArray) (image : t.fuseImage = s.fuseImage) (burn : BurnStands t)
      (verifier : t.manifest.state = s.manifest.state ∨ t.manifest.state = .starting)
  | floorBurn (k : Fin 32) (target : Nat) (good : Bool) (burning : s.fuseController = .burningFloor k target)
      (array : t.fuseArray = (s.settleFloor k good).fuseArray) (image : t.fuseImage = (s.settleFloor k good).fuseImage)
      (burn : BurnStands t) (verifier : t.manifest.state = s.manifest.state ∨ t.manifest.state = .starting)
  | revokeBurn (k : Fin 4) (good : Bool) (burning : s.fuseController = .burningRevoke k)
      (array : t.fuseArray = (s.settleRevoke k good).fuseArray) (image : t.fuseImage = (s.settleRevoke k good).fuseImage)
      (burn : BurnStands t) (verifier : t.manifest.state = s.manifest.state ∨ t.manifest.state = .starting)

/-! Power and RESET_N. -/

theorem State.cutBurn_array_congr {s t : State} (ha : t.fuseArray = s.fuseArray) (hc : t.fuseController = s.fuseController)
    (hn : t.nextFree = s.nextFree) : t.cutBurn.fuseArray = s.cutBurn.fuseArray := by
  rw [State.cutBurn_array, State.cutBurn_array, hc]
  cases s.fuseController <;> simp [State.settleFloor_array, State.settleRevoke_array, ha, hn]

theorem State.coldStop_fuses (s : State) (straps : BitVec 2) : (s.coldStop straps).fuseArray = s.cutBurn.fuseArray ∧
    (s.coldStop straps).fuseImage = none ∧ (s.coldStop straps).fuseController = .idle ∧
    (s.coldStop straps).manifest.state = .starting := by
  simp [State.coldStop, ManifestUnit.cleared]

/-- The fuses after a stop of the state `u`, which has the fuses of `s`; other fields may change besides. -/
theorem FuseStep.of_stop {s t : State} (u : State) (straps : BitVec 2) (ha : u.cutBurn.fuseArray = s.cutBurn.fuseArray)
    (hf : t.fuseArray = (u.coldStop straps).fuseArray ∧ t.fuseImage = (u.coldStop straps).fuseImage ∧
      t.fuseController = (u.coldStop straps).fuseController ∧ t.manifest.state = (u.coldStop straps).manifest.state) :
    FuseStep s t := by
  obtain ⟨array, image, idle, starting⟩ := u.coldStop_fuses straps
  obtain ⟨ta, ti, tc, tm⟩ := hf
  exact .stop (ta.trans (array.trans ha)) (ti.trans image) (tc.trans idle) (tm.trans starting)

theorem execPowerOn_fuseStep {s t : State} {straps : BitVec 2} (h : execPowerOn straps s = .next t) : FuseStep s t := by
  unfold execPowerOn at h
  cases h
  unfold State.when
  split
  · have ha : ({ s.framesClosed with supplies := true } : State).cutBurn.fuseArray = s.cutBurn.fuseArray :=
      State.cutBurn_array_congr (by simp [State.framesClosed]) (by simp [State.framesClosed]) (by simp [State.framesClosed])
    dsimp only
    split
    · exact .of_stop _ straps ha ⟨rfl, rfl, rfl, rfl⟩
    · exact .of_stop _ straps ha ⟨rfl, rfl, rfl, rfl⟩
  · exact .stand (.refl s)

theorem execPowerLoss_fuseStep {s t : State} (h : execPowerLoss s = .next t) : FuseStep s t := by
  unfold execPowerLoss at h
  cases h
  unfold State.when
  split
  · exact .of_stop s s.service.straps rfl ⟨rfl, rfl, rfl, rfl⟩
  · exact .stand (.refl s)

theorem execResetNAssert_fuseStep {s t : State} (h : execResetNAssert s = .next t) : FuseStep s t := by
  unfold execResetNAssert at h
  cases h
  unfold State.when
  split
  · split
    · exact .of_stop s s.service.straps rfl ⟨rfl, rfl, rfl, rfl⟩
    · exact .stand (.of_frame ⟨rfl, rfl, rfl, rfl⟩)
  · exact .stand (.refl s)

theorem execResetNRelease_fuseStep {s t : State} {straps : BitVec 2} (h : execResetNRelease straps s = .next t) :
    FuseStep s t := by
  unfold execResetNRelease at h
  cases h
  unfold State.when
  split
  · split
    · exact .of_stop s straps rfl ⟨rfl, rfl, rfl, rfl⟩
    · exact .stand (.of_frame ⟨rfl, rfl, rfl, rfl⟩)
  · exact .stand (.refl s)

theorem execFuseLoadDone_fuseStep {s t : State} (h : execFuseLoadDone s = .next t) : FuseStep s t := by
  unfold execFuseLoadDone at h
  cases h
  unfold State.when
  split
  · rename_i hc
    simp only [Bool.and_eq_true, beq_iff_eq] at hc
    exact .load hc.2 rfl rfl rfl rfl
  · exact .stand (.refl s)

/-! Fuse commands. -/

theorem State.floorRefusal_none {s : State} (h : s.floorRefusal = .none) :
    s.manifest.state = .serving ∧ s.permit.cause = none ∧ s.allIncludedComplete = true := by
  unfold State.floorRefusal at h
  split at h
  · cases h
  · split at h
    · cases h
    · split at h
      · cases h
      · simp_all

theorem State.judgeFloorAdvance_burn {s : State} (h : s.fuseController = .idle) : BurnStands s.judgeFloorAdvance := by
  have hrefuse (r) : BurnStands (s.refuse r) := .of_idle (by simp [h])
  have hend (x) : BurnStands (s.endCommand x) := .of_idle rfl
  unfold State.judgeFloorAdvance
  split
  · rename_i hr
    split
    · rename_i root f _ hf
      split
      · rename_i k hk
        split
        · exact hend _
        · exact .of_floor rfl hf hk (State.floorRefusal_none hr).1
      · exact hend _
    · exact hrefuse _
  · exact hrefuse _

theorem State.judgeRevoke_burn {s : State} (h : s.fuseController = .idle) (n : Nat) : BurnStands (s.judgeRevoke n) := by
  have hrefuse (r) : BurnStands (s.refuse r) := .of_idle (by simp [h])
  unfold State.judgeRevoke
  split
  · exact hrefuse _
  · rename_i hs
    split
    · split
      · exact hrefuse _
      · split
        · exact hrefuse _
        · rename_i hn _ hr
          exact .of_revoke rfl (Bool.eq_false_iff.mpr hr) (by simpa using hs)
    · exact hrefuse _

/-- A fuse command written at the code field: judged with the fuse controller IDLE, ignored otherwise (R198). -/
theorem State.commandByte_fuseStep (s : State) (code : Byte) (handle : State → State)
    (hframe : ∀ u : State, (handle u).fuseArray = u.fuseArray ∧ (handle u).fuseImage = u.fuseImage ∧
      (handle u).manifest = u.manifest)
    (hburn : ∀ u : State, u.fuseController = .idle → BurnStands (handle u)) :
    FuseStep s (s.dataByte addrCode fun t => t.commandWrite code handle) := by
  rcases s.dataByte_cases addrCode (fun t => t.commandWrite code handle) with ⟨_, e⟩ | ⟨_, e⟩ <;> rw [e]
  · exact .stand (.refl s)
  · unfold State.commandWrite
    split
    · rename_i hc
      generalize hu : s.modService _ = u
      have hsu : FusesStand s u := hu ▸ .of_frame (by simp)
      have hm : u.manifest = s.manifest := by simp [← hu]
      obtain ⟨ha, hi, hm'⟩ := hframe u
      have hb := hburn u (by rw [hsu.controller, hc])
      exact .judged (by simp [ha, hsu.array]) (by simp [hi, hsu.image]) (hb.congr (by simp) (by simp) (by simp))
        (.inl (by simp [hm', hm]))
    · exact .stand (.of_frame (by simp))

theorem execFloorAdvance_fuseStep {s t : State} (h : execFloorAdvance s = .next t) : FuseStep s t := by
  cases h
  exact s.commandByte_fuseStep _ _ (fun u => by simp) fun u hu => State.judgeFloorAdvance_burn hu

theorem execRevokeSlot_fuseStep {s t : State} (h : execRevokeSlot s = .next t) : FuseStep s t := by
  cases h
  exact s.commandByte_fuseStep _ _ (fun u => by simp) fun u hu => State.judgeRevoke_burn hu _

/-! Restarts and burns that complete. -/

theorem State.serviceRestart_starting (s : State) : s.serviceRestart.manifest.state = .starting := rfl

theorem State.takePendingRestart_fuses (s : State) : s.takePendingRestart.fuseArray = s.fuseArray ∧
    s.takePendingRestart.fuseImage = s.fuseImage ∧ s.takePendingRestart.fuseController = s.fuseController ∧
    (s.takePendingRestart.manifest.state = s.manifest.state ∨
      s.fuseController = .idle ∧ s.takePendingRestart.manifest.state = .starting) := by
  rcases s.takePendingRestart_cases with ⟨_, hc, e⟩ | e <;> rw [e]
  · simp [hc, s.serviceRestart_starting]
  · simp

theorem BurnStands.takePendingRestart {s : State} (h : BurnStands s) : BurnStands s.takePendingRestart := by
  obtain ⟨-, hi, hc, hm | ⟨idle, -⟩⟩ := s.takePendingRestart_fuses
  · exact h.congr hi hc hm
  · exact .of_idle (hc.trans idle)

theorem execRestartSequence_fuseStep {s t : State} (h : execRestartSequence s = .next t) : FuseStep s t := by
  unfold execRestartSequence at h
  cases h
  unfold State.when
  split
  · generalize hu : s.modService _ = u
    have hsu : FusesStand s u := hu ▸ .of_frame (by simp)
    have hm : u.manifest = s.manifest := by simp [← hu]
    obtain ⟨ha, hi, hc, hv | ⟨idle, hv⟩⟩ := u.takePendingRestart_fuses
    · exact .stand (hsu.trans (.of_frame ⟨ha, hi, hc, hv⟩))
    · exact .judged (ha.trans hsu.array) (hi.trans hsu.image) (.of_idle (hc.trans idle)) (.inr hv)
  · exact .stand (.refl s)

theorem execServiceRestart_fuseStep {s t : State} (h : execServiceRestart s = .next t) : FuseStep s t := by
  unfold execServiceRestart at h
  cases h
  unfold State.when
  split
  · rename_i hc
    simp only [Bool.and_eq_true, beq_iff_eq] at hc
    exact .judged (by simp) (by simp) (.of_idle (by simp [hc.2])) (.inr s.serviceRestart_starting)
  · exact .stand (.refl s)

theorem State.nextBurn_some {s : State} {target : Nat} {k : Fin 32} (h : s.nextBurn target = some k) :
    ∃ f, s.fuseImage = some f ∧ f.nextFloorFuse = some k := by
  unfold State.nextBurn at h
  split at h
  · split at h
    · exact ⟨_, ‹_›, h⟩
    · cases h
  · cases h

theorem State.afterFloorBurn_burn (s : State) (target : Nat) (good : Bool) : BurnStands (s.afterFloorBurn target good) := by
  unfold State.afterFloorBurn
  split
  · exact .of_idle rfl
  · split
    · exact .of_idle rfl
    · rename_i k hk
      obtain ⟨f, hf, hn⟩ := State.nextBurn_some hk
      split
      · exact .of_idle rfl
      · rename_i hs
        exact .of_floor (f := f) rfl hf hn (by simpa using hs)

theorem execFuseBurnCompletion_fuseStep {s t : State} {good : Bool} (h : execFuseBurnCompletion good s = .next t) :
    FuseStep s t := by
  unfold execFuseBurnCompletion at h
  cases h
  split
  · exact .stand (.refl s)
  · split
    · exact .stand (.refl s)
    · rename_i k target hc
      obtain ⟨ha, hi, -, hv⟩ := ((s.settleFloor k good).afterFloorBurn target good).takePendingRestart_fuses
      refine .floorBurn k target good hc (by simp [ha]) (by simp [hi]) (State.afterFloorBurn_burn _ _ _).takePendingRestart ?_
      simpa using hv.imp_right And.right
    · rename_i k hc
      obtain ⟨ha, hi, -, hv⟩ := ((s.settleRevoke k good).endCommand (if good then .done else .fault)).takePendingRestart_fuses
      refine .revokeBurn k good hc (by simp [ha]) (by simp [hi]) (BurnStands.of_idle rfl).takePendingRestart ?_
      simpa using hv.imp_right And.right

/-- What each command can do to the fuses. -/
theorem exec_fuseStep {c : Instr} {s t : State} (h : exec c s = .next t) : FuseStep s t := by
  cases c with
  | powerOn straps => exact execPowerOn_fuseStep h
  | powerLoss => exact execPowerLoss_fuseStep h
  | resetNAssert => exact execResetNAssert_fuseStep h
  | resetNRelease straps => exact execResetNRelease_fuseStep h
  | fuseLoadDone => exact execFuseLoadDone_fuseStep h
  | floorAdvance => exact execFloorAdvance_fuseStep h
  | revokeSlot => exact execRevokeSlot_fuseStep h
  | fuseBurnCompletion readBack => exact execFuseBurnCompletion_fuseStep h
  | restartSequence => exact execRestartSequence_fuseStep h
  | serviceRestart => exact execServiceRestart_fuseStep h
  | flashReadyPollDone status => exact .stand (execFlashReadyPollDone_stands h)
  | flashReadyLimitExpiry => exact .stand (execFlashReadyLimitExpiry_stands h)
  | flashResetSettleExpiry => exact .stand (execFlashResetSettleExpiry_stands h)
  | selfCheckJobDone engine good => exact .stand (execSelfCheckJobDone_stands h)
  | headerReadDone data => exact .stand (execHeaderReadDone_stands h)
  | manifestReadDone data => exact .stand (execManifestReadDone_stands h)
  | signatureDone pass => exact .stand (execSignatureDone_stands h)
  | flashGrant => exact .stand (execFlashGrant_stands h)
  | flashReadDone data => exact .stand (execFlashReadDone_stands h)
  | statusReadDone status => exact .stand (execStatusReadDone_stands h)
  | programLimitExpiry => exact .stand (execProgramLimitExpiry_stands h)
  | eraseLimitExpiry => exact .stand (execEraseLimitExpiry_stands h)
  | digestBlockHashDone => exact .stand (execDigestBlockHashDone_stands h)
  | segmentHashDone => exact .stand (execSegmentHashDone_stands h)
  | switchingTeardown => exact .stand (execSwitchingTeardown_stands h)
  | rescanHashDone => exact .stand (execRescanHashDone_stands h)
  | rescanTimerExpiry => exact .stand (execRescanTimerExpiry_stands h)
  | optionSample levels => exact .stand (execOptionSample_stands h)
  | holdTimerExpiry port => exact .stand (execHoldTimerExpiry_stands h)
  | riseDelayExpiry => exact .stand (execRiseDelayExpiry_stands h)
  | fallDelayExpiry => exact .stand (execFallDelayExpiry_stands h)
  | read port tag address length flags => exact .stand (execRead_stands h)
  | translate port tag address => exact .stand (execTranslate_stands h)
  | write port tag address data => exact .stand (execWrite_stands h)
  | erase port tag address => exact .stand (execErase_stands h)
  | collect port clocked => exact .stand (execCollect_stands h)
  | status port => exact .stand (execStatus_stands h)
  | reboot port => exact .stand (execReboot_stands h)
  | permitOn port => exact .stand (execPermitOn_stands h)
  | permitOff port => exact .stand (execPermitOff_stands h)
  | malformedFrame port received => exact .stand (execMalformedFrame_stands h)
  | collectWindowExpiry port => exact .stand (execCollectWindowExpiry_stands h)
  | setPointer address byte => exact .stand (execSetPointer_stands h)
  | readTransaction start count => exact .stand (execReadTransaction_stands h)
  | imageSelectWrite byte => exact .stand (execImageSelectWrite_stands h)
  | clearWrite byte => exact .stand (execClearWrite_stands h)
  | eventMaskWrite byte => exact .stand (execEventMaskWrite_stands h)
  | periodWrite event byte => exact .stand (execPeriodWrite_stands h)
  | registerWrite byte => exact .stand (execRegisterWrite_stands h)
  | badCommand code => exact .stand (execBadCommand_stands h)
  | csNFall port => exact .stand (execCsNFall_stands h)

/-! ## No fuse unburns -/

/-- Every floor and revoke fuse settled as burned in `a` is so in `b` (R6). -/
structure BurnedStay (a b : FuseArray) : Prop where
  floor : ∀ k : Fin 32, a.floor[k] = .burned → b.floor[k] = .burned
  revoke : ∀ k : Fin 4, a.revoke[k] = .burned → b.revoke[k] = .burned

theorem BurnedStay.of_eq {a b : FuseArray} (h : b = a) : BurnedStay a b := h ▸ ⟨fun _ => id, fun _ => id⟩

theorem State.settleFloor_burned (s : State) (k : Fin 32) (good : Bool) :
    BurnedStay s.fuseArray (s.settleFloor k good).fuseArray := by
  rw [s.settleFloor_array]
  refine ⟨fun j hj => ?_, fun j hj => hj⟩
  rw [vector_set_get]
  split
  · subst j
    rw [hj, FuseCell.burned_settle]
  · exact hj

theorem State.settleRevoke_burned (s : State) (k : Fin 4) (good : Bool) :
    BurnedStay s.fuseArray (s.settleRevoke k good).fuseArray := by
  rw [s.settleRevoke_array]
  refine ⟨fun j hj => hj, fun j hj => ?_⟩
  rw [vector_set_get]
  split
  · subst j
    rw [hj, FuseCell.burned_settle]
  · exact hj

theorem State.cutBurn_burned (s : State) : BurnedStay s.fuseArray s.cutBurn.fuseArray := by
  rw [s.cutBurn_array]
  split
  · exact .of_eq rfl
  · exact s.settleFloor_burned _ _
  · exact s.settleRevoke_burned _ _

theorem FuseStep.burnedStay {s t : State} (h : FuseStep s t) : BurnedStay s.fuseArray t.fuseArray := by
  cases h with
  | stand h => exact .of_eq h.array
  | stop array => exact array ▸ s.cutBurn_burned
  | load _ array => exact .of_eq array
  | judged array => exact .of_eq array
  | floorBurn k _ good _ array => exact array ▸ s.settleFloor_burned k good
  | revokeBurn k good _ array => exact array ▸ s.settleRevoke_burned k good

/-! ## Image and array agree -/

/-- Every fuse that the image holds as burned reads burned at every later load (R6, R10). -/
structure FusesAgree (a : FuseArray) (i : Option FuseImage) : Prop where
  floor : ∀ f, i = some f → ∀ k : Fin 32, f.floor[k] = true → a.floor[k].reads = true
  revoke : ∀ f, i = some f → ∀ k : Fin 4, f.revoked[k] = true → a.revoke[k].reads = true

theorem FuseSafe.agree {s : State} (h : FuseSafe s) : FusesAgree s.fuseArray s.fuseImage := ⟨h.floorAgrees, h.revokeAgrees⟩

theorem FuseArray.load_floor (a : FuseArray) (k : Fin 32) : a.load.floor[k] = a.floor[k].reads := by
  simp [FuseArray.load]

theorem FuseArray.load_revoked (a : FuseArray) (k : Fin 4) : a.load.revoked[k] = a.revoke[k].reads := by
  simp [FuseArray.load]

theorem FuseArray.load_agrees (a : FuseArray) : FusesAgree a (some a.load) := by
  refine ⟨fun f e k hk => ?_, fun f e k hk => ?_⟩ <;> cases e
  · rwa [a.load_floor] at hk
  · rwa [a.load_revoked] at hk

/-- A burn settles one fuse, which read unburned in the image; a good one then reads burned in both, and after a failed one the
image still reads it unburned. -/
theorem State.settleFloor_agrees {s : State} {k : Fin 32} (good : Bool) (h : FusesAgree s.fuseArray s.fuseImage)
    (hk : ∀ f, s.fuseImage = some f → f.floor[k] = false) :
    FusesAgree (s.settleFloor k good).fuseArray (s.settleFloor k good).fuseImage := by
  rw [s.settleFloor_array, s.settleFloor_image]
  cases good with
  | true =>
    refine ⟨fun g e j hj => ?_, fun g e => ?_⟩ <;> obtain ⟨f, hf, rfl⟩ := Option.map_eq_some_iff.mp e
    · rw [vector_set_get] at hj ⊢
      split at hj
      · simp [FuseCell.settle, FuseCell.reads, *]
      · simpa [*] using h.floor f hf j hj
    · exact h.revoke f hf
  | false =>
    refine ⟨fun f hf j hj => ?_, h.revoke⟩
    have hne : j ≠ k := by
      rintro rfl
      simp [hk f hf] at hj
    rw [vector_set_get, if_neg hne]
    exact h.floor f hf j hj

theorem State.settleRevoke_agrees {s : State} {k : Fin 4} (good : Bool) (h : FusesAgree s.fuseArray s.fuseImage)
    (hk : ∀ f, s.fuseImage = some f → f.revoked[k] = false) :
    FusesAgree (s.settleRevoke k good).fuseArray (s.settleRevoke k good).fuseImage := by
  rw [s.settleRevoke_array, s.settleRevoke_image]
  cases good with
  | true =>
    refine ⟨fun g e => ?_, fun g e j hj => ?_⟩ <;> obtain ⟨f, hf, rfl⟩ := Option.map_eq_some_iff.mp e
    · exact h.floor f hf
    · rw [vector_set_get] at hj ⊢
      split at hj
      · simp [FuseCell.settle, FuseCell.reads, *]
      · simpa [*] using h.revoke f hf j hj
  | false =>
    refine ⟨h.floor, fun f hf j hj => ?_⟩
    have hne : j ≠ k := by
      rintro rfl
      simp [hk f hf] at hj
    rw [vector_set_get, if_neg hne]
    exact h.revoke f hf j hj

/-! ## Every step keeps the fuses safe -/

theorem FuseSafe.of_burnStands {t : State} (held : t.manifest.state ≠ .starting → t.fuseImage.isSome = true)
    (burn : BurnStands t) (agree : FusesAgree t.fuseArray t.fuseImage) : FuseSafe t := by
  have hsome (hc : t.fuseController ≠ .idle) : ∃ f, t.fuseImage = some f :=
    Option.isSome_iff_exists.mp (held (by simp [burn.serving hc]))
  refine ⟨held, fun hs => ?_, fun k target hc => ?_, fun k hc => ?_, agree.floor, agree.revoke⟩
  · refine Decidable.byContradiction fun hc => ?_
    simp [burn.serving hc] at hs
  · obtain ⟨f, hf⟩ := hsome (by simp [hc])
    exact ⟨f, hf, burn.floor k target f hc hf⟩
  · obtain ⟨f, hf⟩ := hsome (by simp [hc])
    exact ⟨f, hf, burn.revoke k f hc hf⟩

theorem FusesStand.safe {s t : State} (h : FusesStand s t) (hs : FuseSafe s) : FuseSafe t := by
  obtain ⟨array, image, controller, verifier⟩ := h
  refine ⟨fun hm => ?_, fun hm => ?_, ?_, ?_, ?_, ?_⟩
  · rw [image]
    rcases verifier with e | ⟨_, held⟩
    · exact hs.heldOutsideStarting (e ▸ hm)
    · exact held
  · rw [controller]
    rcases verifier with e | ⟨e, _⟩
    · exact hs.idleInStarting (e ▸ hm)
    · exact absurd hm e
  · rw [controller, image]
    exact hs.floorTarget
  · rw [controller, image]
    exact hs.revokeTarget
  · rw [array, image]
    exact hs.floorAgrees
  · rw [array, image]
    exact hs.revokeAgrees

/-- With the verifier state as it was, or STARTING, an image as long as one was held. -/
theorem FuseSafe.stillHeld {s t : State} (hs : FuseSafe s) (himage : s.fuseImage.isSome = true → t.fuseImage.isSome = true)
    (verifier : t.manifest.state = s.manifest.state ∨ t.manifest.state = .starting) (hm : t.manifest.state ≠ .starting) :
    t.fuseImage.isSome = true := by
  rcases verifier with e | e
  · exact himage (hs.heldOutsideStarting (e ▸ hm))
  · exact absurd e hm

theorem FuseStep.safe {s t : State} (h : FuseStep s t) (ho : StartOrder s) (hs : FuseSafe s) : FuseSafe t := by
  cases h with
  | stand h => exact h.safe hs
  | stop array image idle starting =>
    refine .of_burnStands (fun hm => absurd starting hm) (.of_idle idle) ?_
    rw [image]
    exact ⟨fun _ e => by simp at e, fun _ e => by simp at e⟩
  | load ready array image controller verifier =>
    have hidle : s.fuseController = .idle := hs.idleInStarting (ho.onlyStarting (by simp [ready]))
    refine .of_burnStands (fun _ => by simp [image]) (.of_idle (controller.trans hidle)) ?_
    rw [array, image]
    exact s.fuseArray.load_agrees
  | judged array image burn verifier =>
    refine .of_burnStands (hs.stillHeld (by simp [image]) verifier) burn ?_
    rw [array, image]
    exact hs.agree
  | floorBurn k target good burning array image burn verifier =>
    obtain ⟨f, hf, hk⟩ := hs.floorTarget k target burning
    refine .of_burnStands (hs.stillHeld ?_ verifier) burn ?_
    · rw [image, s.settleFloor_image]
      cases good <;> simp
    · rw [array, image]
      exact State.settleFloor_agrees good hs.agree fun g hg => by simp_all
  | revokeBurn k good burning array image burn verifier =>
    obtain ⟨f, hf, hk⟩ := hs.revokeTarget k burning
    refine .of_burnStands (hs.stillHeld ?_ verifier) burn ?_
    · rw [image, s.settleRevoke_image]
      cases good <;> simp
    · rw [array, image]
      exact State.settleRevoke_agrees good hs.agree fun g hg => by simp_all

/-! ## The rollback floor never falls -/

theorem FuseStep.floor_rises {s t : State} (h : FuseStep s t) (hs : FuseSafe s) {f g : FuseImage} (hf : s.fuseImage = some f)
    (hg : t.fuseImage = some g) (k : Fin 32) (hk : f.floor[k] = true) : g.floor[k] = true := by
  have hsame (image : t.fuseImage = s.fuseImage) : g.floor[k] = true := by
    cases hg.symm.trans (image.trans hf)
    exact hk
  cases h with
  | stand h => exact hsame h.image
  | stop _ image => simp [image] at hg
  | load _ _ image =>
    cases hg.symm.trans image
    rw [FuseArray.load_floor]
    exact hs.floorAgrees f hf k hk
  | judged _ image => exact hsame image
  | floorBurn j target good _ _ image =>
    rw [s.settleFloor_image, hf] at image
    cases good with
    | false => exact hsame (image.trans hf.symm)
    | true =>
      cases hg.symm.trans image
      rw [vector_set_get, hk, ite_self]
  | revokeBurn j good _ _ image =>
    rw [s.settleRevoke_image, hf] at image
    cases good with
    | false => exact hsame (image.trans hf.symm)
    | true =>
      cases hg.symm.trans image
      exact hk

/-- A step is idle or runs a command on the rest of the queue, which the fuses do not depend on. -/
theorem step_fuseStep {s t : State} (h : step s = .next t) : FuseStep s t := by
  unfold step at h
  split at h
  · cases h
    exact .stand (.refl s)
  · rename_i c cs _
    have hq : FusesStand s { s with pending := cs } := .of_frame ⟨rfl, rfl, rfl, rfl⟩
    cases exec_fuseStep h with
    | stand h => exact .stand (hq.trans h)
    | stop array image idle starting => exact .stop (array.trans (State.cutBurn_array_congr rfl rfl rfl)) image idle starting
    | load ready array image controller verifier => exact .load ready array image controller verifier
    | judged array image burn verifier => exact .judged array image burn verifier
    | floorBurn k target good burning array image burn verifier =>
      refine .floorBurn k target good burning ?_ ?_ burn verifier
      · simpa only [State.settleFloor_array] using array
      · simpa only [State.settleFloor_image] using image
    | revokeBurn k good burning array image burn verifier =>
      refine .revokeBurn k good burning ?_ ?_ burn verifier
      · simpa only [State.settleRevoke_array] using array
      · simpa only [State.settleRevoke_image] using image

/-- Settles O58: every command is one of the kinds of `FuseStep`, each of which keeps `FuseSafe`, the floor and the burned fuses. -/
theorem stepsKeepFusesAndFloor : Obligations.StepsKeepFusesAndFloor := by
  unfold Obligations.StepsKeepFusesAndFloor
  refine ⟨fun s t ho hs h => (step_fuseStep h).safe ho hs, fun s t _ hs h f g hf hg => ⟨?_, floor_count_le _⟩,
    fun c s t h => ⟨(exec_fuseStep h).burnedStay.floor, (exec_fuseStep h).burnedStay.revoke⟩⟩
  exact floor_count_mono ((step_fuseStep h).floor_rises hs hf hg)

end Sys2Proof.Machine
end

section
/-! The flash map, the fuse load, and the fuse commands: how each is judged, begun and ended
(01_flash_regions_fuses_and_the_rollback_floor.md). -/

namespace Sys2Proof.Machine

/-! ## The fuse load -/

theorem count_true_eq_countP (l : List Bool) : l.count true = l.countP id := by
  rw [List.count_eq_countP]
  congr 1
  funext b
  cases b <;> rfl

/-- The rollback floor as the statements count it (R8). -/
theorem FuseImage.floorLevel_eq (f : FuseImage) : f.floorLevel = f.floor.toList.count true :=
  (count_true_eq_countP _).symm

theorem exec_fuseLoadDone {s : State} (hl : s.live = true) (hs : s.manifest.startStep = some .fuseLoad) :
    exec .fuseLoadDone s = .next { s with
      fuseImage := some s.fuseArray.load
      permit := s.permit.restart true
      manifest := { s.manifest with startStep := some (.selfCheck false 0) } } := by
  show execFuseLoadDone s = _
  simp [execFuseLoadDone, State.when, hl, hs]

/-! ## The flash map -/

/-- The three sizes the flash can have, and a recovery region of at most 8 MiB (R1). -/
def FuseImage.Sized (f : FuseImage) : Prop := (f.flashMiB = 16 ∨ f.flashMiB = 32 ∨ f.flashMiB = 64) ∧ f.recoveryMiB ≤ 8

/-- Both sizes are whole MiB, so each bank takes half a MiB for each MiB that they differ by. -/
theorem FuseImage.bankBytes_eq (f : FuseImage) : f.bankBytes = (f.flashMiB - f.recoveryMiB) * 524288 := by
  simp only [FuseImage.bankBytes, FuseImage.flashBytes, FuseImage.recoveryBytes, Config.mib]
  omega

theorem FuseImage.regionBase_recovery {f : FuseImage} (h : f.Sized) : f.regionBase .recovery = f.bankBytes + f.bankBytes := by
  obtain ⟨hF, hR⟩ := h
  rw [f.bankBytes_eq]
  simp only [FuseImage.regionBase, FuseImage.flashBytes, FuseImage.recoveryBytes, Config.mib]
  omega

theorem FuseImage.recovery_ends {f : FuseImage} (h : f.Sized) : f.regionBase .recovery + f.recoveryBytes = f.flashBytes := by
  obtain ⟨hF, hR⟩ := h
  simp only [FuseImage.regionBase, FuseImage.flashBytes, FuseImage.recoveryBytes, Config.mib]
  omega

/-- An address lies in a region exactly when it is one of the region's bytes (R2). -/
theorem FuseImage.regionOf_iff {f : FuseImage} (h : f.Sized) (a : Nat) (src : Source) :
    f.regionOf a = some src ↔ f.regionBase src ≤ a ∧ a < f.regionBase src + f.regionBytes src := by
  have hbase : f.flashBytes - f.recoveryBytes = f.bankBytes + f.bankBytes := f.regionBase_recovery h
  have hend : f.flashBytes - f.recoveryBytes + f.recoveryBytes = f.flashBytes := f.recovery_ends h
  unfold FuseImage.regionOf
  by_cases hout : f.flashBytes ≤ a
  · rw [if_pos hout]
    rcases src with (_ | _) | _ <;> simp [FuseImage.regionBase, FuseImage.regionBytes] <;> omega
  rw [if_neg hout]
  by_cases hrecovery : f.flashBytes - f.recoveryBytes ≤ a
  · rw [if_pos hrecovery]
    rcases src with (_ | _) | _ <;> simp [FuseImage.regionBase, FuseImage.regionBytes] <;> omega
  rw [if_neg hrecovery]
  by_cases hbank1 : f.bankBytes ≤ a
  · rw [if_pos hbank1]
    rcases src with (_ | _) | _ <;> simp [FuseImage.regionBase, FuseImage.regionBytes] <;> omega
  · rw [if_neg hbank1]
    rcases src with (_ | _) | _ <;> simp [FuseImage.regionBase, FuseImage.regionBytes] <;> omega

/-- Settles O6: the load copies the array field by field, and the regions follow each other from 0 to F. -/
theorem fuseLoadSetsImageAndFlashMap : Obligations.FuseLoadSetsImageAndFlashMap := by
  unfold Obligations.FuseLoadSetsImageAndFlashMap
  refine ⟨fun s hl hs => ?_, fun f hF hR => ?_⟩
  · exact ⟨_, s.fuseArray.load, exec_fuseLoadDone hl hs, rfl, rfl, s.fuseArray.load_revoked, s.fuseArray.load_floor, rfl,
      (count_true_eq_countP _).symm, rfl, rfl, rfl, rfl⟩
  · have h : f.Sized := ⟨hF, hR⟩
    have hbank : f.bankBytes % 4096 = 0 := by
      rw [f.bankBytes_eq]
      omega
    refine ⟨rfl, hbank, rfl, rfl, f.regionBase_recovery h, f.recovery_ends h, fun a => ⟨fun ha => ?_, fun ha => ?_,
      fun src => f.regionOf_iff h a src⟩⟩
    · simp [FuseImage.regionOf, ha]
    · unfold FuseImage.regionOf
      rw [if_neg (by omega)]
      split
      · exact ⟨_, rfl⟩
      · split <;> exact ⟨_, rfl⟩

/-! ## Writes of the code field (R198) -/

/-- A data byte may be written to the code field. -/
structure AtCode (s : State) : Prop where
  live : s.live = true
  writing : s.service.transaction = .writing
  pointer : s.service.pointer = 0x19

theorem AtCode.dataByte {s : State} (h : AtCode s) (effect : State → State) :
    s.dataByte addrCode effect = (effect s).modService fun v => { v.step with acked := true } := by
  rcases s.dataByte_cases addrCode effect with ⟨no, _⟩ | ⟨_, e⟩
  · exact absurd ⟨h.live, h.writing, h.pointer⟩ no
  · exact e

/-- A code is taken: it is kept and IGNORED cleared. -/
def State.takeCode (s : State) (code : Byte) : State := s.modService fun v => { v with code := code, ignored := false }

theorem AtCode.commandWrite_idle {s : State} (h : AtCode s) (hc : s.fuseController = .idle) (code : Byte)
    (handle : State → State) : s.dataByte addrCode (fun t => t.commandWrite code handle) =
      (handle (s.takeCode code)).modService fun v => { v.step with acked := true } := by
  rw [h.dataByte, State.commandWrite, if_pos hc]
  rfl

theorem AtCode.commandWrite_burning {s : State} (h : AtCode s) (hc : s.fuseController ≠ .idle) (code : Byte)
    (handle : State → State) : s.dataByte addrCode (fun t => t.commandWrite code handle) =
      s.modService fun v => { v.step with acked := true, ignored := true } := by
  rw [h.dataByte, State.commandWrite, if_neg hc]
  rfl

/-! ## FLOOR_ADVANCE (R11) -/

theorem State.allIncludedComplete_iff (s : State) :
    s.allIncludedComplete = true ↔ ∀ im ∈ s.images, im.included = true → im.state = .complete := by
  simp [State.allIncludedComplete, Decidable.imp_iff_not_or]

theorem State.floorRefusal_notServing {s : State} (h : s.manifest.state ≠ .serving) : s.floorRefusal = .notServing := by
  simp [State.floorRefusal, h]

theorem State.floorRefusal_tripLatched {s : State} (h : s.manifest.state = .serving) (hc : s.permit.cause ≠ none) :
    s.floorRefusal = .tripLatched := by
  simp [State.floorRefusal, h, Option.isSome_iff_ne_none.mpr hc]

theorem State.floorRefusal_imagesIncomplete {s : State} (h : s.manifest.state = .serving) (hc : s.permit.cause = none)
    (hi : s.allIncludedComplete ≠ true) : s.floorRefusal = .imagesIncomplete := by
  simp [State.floorRefusal, h, hc, hi]

theorem State.floorRefusal_eq_none {s : State} (h : s.manifest.state = .serving) (hc : s.permit.cause = none)
    (hi : s.allIncludedComplete = true) : s.floorRefusal = .none := by
  simp [State.floorRefusal, h, hc, hi]

theorem State.judgeFloorAdvance_refused {s : State} (h : s.floorRefusal ≠ .none) :
    s.judgeFloorAdvance = s.refuse s.floorRefusal := by
  unfold State.judgeFloorAdvance
  split
  · exact absurd ‹_› h
  · rfl

/-- A floor below 32 leaves a fuse to burn (R8). -/
theorem FuseImage.nextFloorFuse_of_lt {f : FuseImage} (h : f.floorLevel < 32) : ∃ k, f.nextFloorFuse = some k := by
  rw [← Option.isSome_iff_exists, FuseImage.nextFloorFuse, List.find?_isSome]
  refine Decidable.byContradiction fun hno => ?_
  have hall : ∀ b ∈ f.floor.toList, id b = true := by
    intro b hb
    obtain ⟨i, hi, rfl⟩ := List.mem_iff_getElem.mp hb
    have hi' : i < 32 := by simpa using hi
    refine Decidable.byContradiction fun hne => ?_
    exact hno ⟨⟨i, hi'⟩, List.mem_finRange _, by simpa using hne⟩
  have : f.floorLevel = 32 := by
    rw [FuseImage.floorLevel, List.countP_eq_length.mpr hall]
    simp
  omega

section

variable {s : State} {root : RootInfo} {f : FuseImage}

theorem State.judgeFloorAdvance_done (h : s.floorRefusal = .none) (hr : s.activeRoot = some root) (hf : s.fuseImage = some f)
    (hl : root.level ≤ f.floorLevel) : s.judgeFloorAdvance = s.endCommand .done := by
  unfold State.judgeFloorAdvance
  simp only [h, hr, hf, hl, if_true]
  split <;> rfl

theorem State.judgeFloorAdvance_burns {k : Fin 32} (h : s.floorRefusal = .none) (hr : s.activeRoot = some root)
    (hf : s.fuseImage = some f) (hl : f.floorLevel < root.level) (hk : f.nextFloorFuse = some k) :
    s.judgeFloorAdvance = s.startBurn (.burningFloor k root.level) := by
  unfold State.judgeFloorAdvance
  simp only [h, hr, hf, hk, Nat.not_le.mpr hl, if_false]

end

/-- A command's end: the result, and FUSE_DONE, which is flag bit 6 (R199). -/
theorem State.endCommand_eq (s : State) (x : ResultStatus) : s.endCommand x = { s with
    fuseController := .idle
    service := { s.service with result := x, reason := .none, flags := s.service.flags ||| 0x40 } } := rfl

/-- Settles O51: the judgement in IDLE, the refusals in the order of their conditions. -/
theorem floorAdvanceIsJudged : Obligations.FloorAdvanceIsJudged := by
  unfold Obligations.FloorAdvanceIsJudged
  intro s hl hw hp hc taken complete refused
  have hat : AtCode s := ⟨hl, hw, hp⟩
  have hexec : exec .floorAdvance s =
      .next ((s.takeCode 0xA1).judgeFloorAdvance.modService fun v => { v.step with acked := true }) :=
    congrArg Host.Outcome.next (hat.commandWrite_idle hc _ _)
  have hrefused {r : RefusalReason} (hr : (s.takeCode 0xA1).floorRefusal = r) (hne : r ≠ .none) : refused r := by
    subst hr
    show exec .floorAdvance s = _
    rw [hexec, State.judgeFloorAdvance_refused hne]
    rfl
  have hcomplete : (s.takeCode 0xA1).allIncludedComplete = true ↔ complete := s.allIncludedComplete_iff
  refine ⟨fun hs => ?_, fun hs hcause => ?_, fun hs hcause hi => ?_, ?_⟩
  · exact hrefused (State.floorRefusal_notServing hs) (by decide)
  · exact hrefused (State.floorRefusal_tripLatched hs hcause) (by decide)
  · exact hrefused (State.floorRefusal_imagesIncomplete hs hcause (mt hcomplete.mp hi)) (by decide)
  · intro f b root hs hcause hi hf hsum hle floor
    have hnone : (s.takeCode 0xA1).floorRefusal = .none := State.floorRefusal_eq_none hs hcause (hcomplete.mpr hi)
    have hroot : (s.takeCode 0xA1).activeRoot = some root := by
      show s.activeRoot = _
      simp [State.activeRoot, hsum]
    have hfloor : floor = f.floorLevel := f.floorLevel_eq.symm
    refine ⟨fun hdone => ?_, fun hburn => ?_⟩
    · rw [hexec, State.judgeFloorAdvance_done hnone hroot hf (hfloor ▸ hdone), State.endCommand_eq, hc]
      rfl
    · obtain ⟨k, hk⟩ := FuseImage.nextFloorFuse_of_lt (f := f) (by omega)
      refine ⟨k, (FuseImage.nextFloorFuse_some hk).1, (FuseImage.nextFloorFuse_some hk).2, ?_⟩
      rw [hexec, State.judgeFloorAdvance_burns hnone hroot hf (hfloor ▸ hburn) hk]
      rfl

/-! ## REVOKE_SLOT and other codes (R14, R198) -/

theorem State.judgeRevoke_notServing {s : State} (h : s.manifest.state ≠ .serving) (n : Nat) :
    s.judgeRevoke n = s.refuse .notServing := by
  simp [State.judgeRevoke, h]

theorem State.judgeRevoke_badSlot {s : State} (h : s.manifest.state = .serving) {n : Nat} (hn : 4 ≤ n) :
    s.judgeRevoke n = s.refuse .badSlot := by
  simp [State.judgeRevoke, h, Nat.not_lt.mpr hn]

/-- A slot that exists: refused while the active root is signed by it, then while it is revoked; else its burn begins. -/
theorem State.judgeRevoke_slot {s : State} {root : RootInfo} {f : FuseImage} (h : s.manifest.state = .serving)
    (hr : s.activeRoot = some root) (hf : s.fuseImage = some f) (n : Fin 4) : s.judgeRevoke n =
      if root.keySlot = n then s.refuse .activeSlot
      else if f.revoked[n] = true then s.refuse .alreadyRevoked
      else s.startBurn (.burningRevoke n) := by
  simp [State.judgeRevoke, State.slotRevoked, h, hr, hf]

/-- Settles O52: the judgement of REVOKE_SLOT in IDLE, BAD_COMMAND, and every code ignored while BURNING. -/
theorem revokeSlotAndOtherCommands : Obligations.RevokeSlotAndOtherCommands := by
  unfold Obligations.RevokeSlotAndOtherCommands
  refine ⟨fun s hl hw hp hc => ?_, fun s code hl hw hp h1 h2 => ?_⟩
  · have hat : AtCode s := ⟨hl, hw, hp⟩
    have hexec : exec .revokeSlot s = .next (((s.takeCode 0xA2).judgeRevoke s.service.argument.toNat).modService
        fun v => { v.step with acked := true }) := congrArg Host.Outcome.next (hat.commandWrite_idle hc _ _)
    rw [hexec]
    refine ⟨fun hs => ?_, fun hs hn => ?_, fun f b root n hs hf hsum hn => ?_⟩
    · rw [State.judgeRevoke_notServing (s := s.takeCode 0xA2) hs]
      rfl
    · rw [State.judgeRevoke_badSlot (s := s.takeCode 0xA2) hs hn]
      rfl
    · have hroot : (s.takeCode 0xA2).activeRoot = some root := by
        show s.activeRoot = _
        simp [State.activeRoot, hsum]
      rw [hn, State.judgeRevoke_slot (s := s.takeCode 0xA2) hs hroot hf]
      refine ⟨fun hk => ?_, fun hk hr => ?_, fun hk hr => ?_⟩
      · rw [if_pos hk]
        rfl
      · rw [if_neg hk, if_pos hr]
        rfl
      · rw [if_neg hk, if_neg (by simp [hr])]
        rfl
  · have hat : AtCode s := ⟨hl, hw, hp⟩
    have hbad : exec (.badCommand code) s =
        .next (s.dataByte addrCode fun t => t.commandWrite code fun u => u.refuse .badCommand) := by
      show execBadCommand code s = _
      unfold execBadCommand State.when
      rw [if_pos (by simpa using ⟨h1, h2⟩)]
    refine ⟨fun hc c hcode => ?_, fun hc => ?_⟩
    · rcases hcode with rfl | rfl | rfl
      · exact congrArg Host.Outcome.next (hat.commandWrite_burning hc _ _)
      · exact congrArg Host.Outcome.next (hat.commandWrite_burning hc _ _)
      · rw [hbad, hat.commandWrite_burning hc]
        rfl
    · rw [hbad, hat.commandWrite_idle hc]
      rfl

/-! ## Burns that complete (R10, R12, R14) -/

section

variable {s : State} {f : FuseImage} {target : Nat}

theorem exec_floorBurn {k : Fin 32} (hl : s.live = true) (hc : s.fuseController = .burningFloor k target) (good : Bool) :
    exec (.fuseBurnCompletion good) s =
      .next ((s.settleFloor k good).afterFloorBurn target good).takePendingRestart := by
  show execFuseBurnCompletion good s = _
  simp [execFuseBurnCompletion, hl, hc]

theorem exec_revokeBurn {k : Fin 4} (hl : s.live = true) (hc : s.fuseController = .burningRevoke k) (good : Bool) :
    exec (.fuseBurnCompletion good) s =
      .next ((s.settleRevoke k good).endCommand (if good then .done else .fault)).takePendingRestart := by
  show execFuseBurnCompletion good s = _
  simp [execFuseBurnCompletion, hl, hc]

theorem State.settleFloor_good (hf : s.fuseImage = some f) (k : Fin 32) : s.settleFloor k true = { s with
    fuseArray := { s.fuseArray with floor := s.fuseArray.floor.set k .burned }
    fuseImage := some { f with floor := f.floor.set k true } } := by
  simp [State.settleFloor, hf]

theorem State.settleRevoke_good (hf : s.fuseImage = some f) (k : Fin 4) : s.settleRevoke k true = { s with
    fuseArray := { s.fuseArray with revoke := s.fuseArray.revoke.set k .burned }
    fuseImage := some { f with revoked := f.revoked.set k true } } := by
  simp [State.settleRevoke, hf]

theorem State.afterFloorBurn_failed : s.afterFloorBurn target false = s.endCommand .fault := rfl

theorem State.afterFloorBurn_done (hf : s.fuseImage = some f) (h : target ≤ f.floorLevel) :
    s.afterFloorBurn target true = s.endCommand .done := by
  simp [State.afterFloorBurn, State.nextBurn, hf, Nat.not_lt.mpr h]

theorem State.nextBurn_owed (hf : s.fuseImage = some f) (h : f.floorLevel < target) (ht : target ≤ 32) :
    ∃ k, f.nextFloorFuse = some k ∧ s.nextBurn target = some k := by
  obtain ⟨k, hk⟩ := FuseImage.nextFloorFuse_of_lt (f := f) (by omega)
  exact ⟨k, hk, by simp [State.nextBurn, hf, h, hk]⟩

theorem State.afterFloorBurn_aborted (hf : s.fuseImage = some f) (h : f.floorLevel < target) (ht : target ≤ 32)
    (hs : s.manifest.state ≠ .serving) : s.afterFloorBurn target true = s.endCommand .aborted := by
  obtain ⟨k, -, hn⟩ := State.nextBurn_owed hf h ht
  simp [State.afterFloorBurn, hn, hs]

theorem State.afterFloorBurn_next (hf : s.fuseImage = some f) (h : f.floorLevel < target) (ht : target ≤ 32)
    (hs : s.manifest.state = .serving) : ∃ k, f.nextFloorFuse = some k ∧
      s.afterFloorBurn target true = { s with fuseController := .burningFloor k target } := by
  obtain ⟨k, hk, hn⟩ := State.nextBurn_owed hf h ht
  exact ⟨k, hk, by simp [State.afterFloorBurn, hn, hs]⟩

theorem State.takePendingRestart_none (h : s.service.pendingRestart = false) : s.takePendingRestart = s := by
  simp [State.takePendingRestart, h]

end

/-- Settles O53: the cases of R12 and R14, with no restart held. -/
theorem fuseBurnsComplete : Obligations.FuseBurnsComplete := by
  unfold Obligations.FuseBurnsComplete
  refine ⟨?_, ?_⟩
  · intro s f k target hl hp hc hf ht after floor ended burned
    have hafter : s.settleFloor k true = burned := State.settleFloor_good hf k
    have hfloor : floor = after.floorLevel := after.floorLevel_eq.symm
    have himage : burned.fuseImage = some after := rfl
    refine ⟨⟨s.fuseArray.floor[k].unsettle s.nextFree, ?_, fun h => FuseCell.unsettle_of_ne h _⟩, fun hd => ?_, fun hd hs => ?_,
      fun hd hs => ?_⟩
    · rw [exec_floorBurn hl hc, State.afterFloorBurn_failed, State.takePendingRestart_none (by exact hp)]
      rfl
    · rw [exec_floorBurn hl hc, hafter, State.afterFloorBurn_done himage (hfloor ▸ hd),
        State.takePendingRestart_none (by exact hp)]
      rfl
    · rw [exec_floorBurn hl hc, hafter, State.afterFloorBurn_aborted himage (hfloor ▸ hd) ht hs,
        State.takePendingRestart_none (by exact hp)]
      rfl
    · obtain ⟨j, hj, hnext⟩ := State.afterFloorBurn_next himage (hfloor ▸ hd) ht hs
      refine ⟨j, (FuseImage.nextFloorFuse_some hj).1, (FuseImage.nextFloorFuse_some hj).2, ?_⟩
      rw [exec_floorBurn hl hc, hafter, hnext, State.takePendingRestart_none (by exact hp)]
  · intro s f k hl hp hc hf ended
    refine ⟨?_, s.fuseArray.revoke[k].unsettle s.nextFree, ?_, fun h => FuseCell.unsettle_of_ne h _⟩
    · rw [exec_revokeBurn hl hc, State.settleRevoke_good hf, State.takePendingRestart_none (by exact hp)]
      rfl
    · rw [exec_revokeBurn hl hc, State.takePendingRestart_none (by exact hp)]
      rfl

end Sys2Proof.Machine
end

section
/-! Stops and restarts: what POWER_LOSS, RESET_N_ASSERT and a service restart leave of every block, and of a frame that runs
(01_flash_regions_fuses_and_the_rollback_floor.md, R16, R17, R150, R201). -/

namespace Sys2Proof.Machine

/-! ## Frames cut short (R150) -/

/-- A COLLECT's answer with nothing bound is NONE's header (R132). -/
theorem State.answer_unbound {f : SpiFrame} (h : f.bound = none) (s : State) (p : Port) :
    s.answer p f = [0x00, 0x0F, 0x00, 0x00] := by
  unfold State.answer
  rw [h]
  rfl

/-- A COLLECT's answer is the bound response while that is at the head (R131). -/
theorem State.answer_bound {s : State} {p : Port} {f : SpiFrame} {e : Entry} {es : List Entry} {x : RespStatus}
    (hq : (s.port p).queue = e :: es) (hx : e.status = some x) (hf : f.bound = some e.id) :
    s.answer p f = s.response e x := by
  simp [State.answer, hq, hx, hf]

/-- The answer reads the port and the lines alone. -/
theorem State.answer_congr {s t : State} {p : Port} (hp : t.port p = s.port p) (hl : t.lines = s.lines) (f : SpiFrame) :
    t.answer p f = s.answer p f := by
  have hpiece : t.pieceBytes = s.pieceBytes := by
    funext hs x
    simp only [State.pieceBytes, hl]
  have hresp : t.response = s.response := by
    funext e x
    simp only [State.response, hpiece]
  simp only [State.answer, hp, hresp]

theorem State.cutFrame_port_other {p q : Port} (h : q ≠ p) (s : State) : (s.cutFrame p).port q = s.port q := by
  unfold State.cutFrame
  split
  · split
    · cases p <;> cases q
      all_goals simp_all [State.port, State.modPort]
    · rfl
  · rfl

/-- What a cut leaves in the port that it concerns: its frame, if one is live, is cut short with its answer kept. -/
theorem State.cutFrame_port (s : State) (p : Port) : (s.cutFrame p).port p = { s.port p with
    frame := (s.port p).frame.map fun f => if f.live then f.cutShort s.nextFree (s.answer p f) else f } := by
  unfold State.cutFrame
  split
  · rename_i f hf
    split
    · rename_i hlive
      cases p <;> simp_all [State.port, State.modPort]
    · rename_i hlive
      simp only [hf, Option.map_some, if_neg hlive]
      rw [← hf]
  · rename_i hf
    simp only [hf, Option.map_none]
    rw [← hf]

/-- The unit of a port after both ports left RELEASED, for some index `k` of the free value (log entry 34). -/
theorem State.cutFrames_port (s : State) (p : Port) : ∃ k, s.cutFrames.port p = { s.port p with
    frame := (s.port p).frame.map fun f => if f.live then f.cutShort k (s.answer p f) else f } := by
  cases p with
  | a =>
    refine ⟨s.nextFree, ?_⟩
    rw [State.cutFrames, State.cutFrame_port_other (by decide), State.cutFrame_port]
  | b =>
    have hb : (s.cutFrame .a).port .b = s.port .b := State.cutFrame_port_other (by decide) s
    have ha : (s.cutFrame .a).answer .b = s.answer .b := funext fun f => State.answer_congr hb (by simp) f
    refine ⟨(s.cutFrame .a).nextFree, ?_⟩
    rw [State.cutFrames, State.cutFrame_port, hb, ha]

/-- What a stop of every block leaves of a port: HELD and empty, its line asserted and its flags clear, and a live frame cut short
(R124, R147, R150). -/
structure PortStopped (s : State) (p : Port) (t : State) : Prop where
  held : (t.port p).state = .held
  empty : (t.port p).queue = []
  hold : (t.port p).holdServed = false
  quiet : (t.port p).frameLive = false
  cut : FrameCut s p t
  overrun : (t.port p).overrun = false
  dropped : (t.port p).dropped = false
  badFrame : (t.port p).badFrame = false

theorem State.start_stopped {s t : State} {p : Port} (h : t.port p = (s.cutFrames.port p).start) : PortStopped s p t := by
  obtain ⟨k, hk⟩ := s.cutFrames_port p
  rw [hk] at h
  have hframe : (t.port p).frame =
      (s.port p).frame.map fun f => if f.live then f.cutShort k (s.answer p f) else f := by
    rw [h]
    rfl
  refine ⟨by rw [h]; rfl, by rw [h]; rfl, by rw [h]; rfl, ?_, fun f hf hlive => ?_, by rw [h]; rfl, by rw [h]; rfl, by rw [h]; rfl⟩
  · unfold PortUnit.frameLive
    rw [hframe]
    cases (s.port p).frame with
    | none => rfl
    | some f => cases hlive : f.live <;> simp [hlive, SpiFrame.cutShort]
  · rw [hframe, hf]
    refine ⟨k, s.answer p f, by simp [hlive, SpiFrame.cutShort], fun hb => State.answer_unbound hb s p, ?_⟩
    exact fun e es x hq hx hb => State.answer_bound hq hx hb

/-- A cut reads the port and the lines alone. -/
theorem PortStopped.congr {s u t : State} {p : Port} (h : PortStopped u p t) (hp : u.port p = s.port p)
    (hl : u.lines = s.lines) : PortStopped s p t := by
  refine { h with cut := fun f hf hlive => ?_ }
  obtain ⟨k, b, hframe, hnone, hbound⟩ := h.cut f (hp ▸ hf) hlive
  refine ⟨k, b, hframe, hnone, fun e es x hq hx hb => ?_⟩
  rw [← State.answer_bound hq hx hb, ← State.answer_congr hp hl f, State.answer_bound (hp ▸ hq) hx hb]
  exact hbound e es x (hp ▸ hq) hx hb

/-! ## POWER_LOSS and RESET_N_ASSERT -/

theorem State.coldStop_stopped {s t : State} {straps : BitVec 2} {p : Port} (h : t.port p = (s.coldStop straps).port p) :
    PortStopped s p t := by
  have hport : t.port p = (s.cutBurn.cutFrames.port p).start := h.trans (by cases p <;> rfl)
  exact (State.start_stopped hport).congr (State.port_congr (by simp) (by simp) p) (by simp)

/-- A stop of every block but for the levels of the supplies and of RESET_N. -/
theorem exec_stops {c : Instr} {s : State} (hc : c = .powerLoss ∨ c = .resetNAssert) (hs : s.supplies = true)
    (hr : s.resetN = true) : ∃ x y, (x && y) = false ∧
      exec c s = .next { s.coldStop s.service.straps with supplies := x, resetN := y } := by
  have hcold : (s.coldStop s.service.straps).supplies = true ∧ (s.coldStop s.service.straps).resetN = true := by
    simp [State.coldStop, hs, hr]
  rcases hc with rfl | rfl
  · refine ⟨false, true, rfl, ?_⟩
    show execPowerLoss s = _
    rw [← hcold.2]
    simp [execPowerLoss, State.when, hs]
  · refine ⟨true, false, rfl, ?_⟩
    show execResetNAssert s = _
    rw [← hcold.1]
    simp [execResetNAssert, State.when, hs, hr]

/-- Settles O4: both commands are the cold stop, which cuts a burn off first. -/
theorem powerLossStopsAndCutsTheBurn : Obligations.PowerLossStopsAndCutsTheBurn := by
  unfold Obligations.PowerLossStopsAndCutsTheBurn
  refine ⟨fun c s hc hs hr => ?_, fun c s hc hs hr => ⟨fun k target hb hk => ?_, fun k hb hk => ?_⟩⟩
  · obtain ⟨x, y, hxy, he⟩ := exec_stops hc hs hr
    obtain ⟨-, image, idle, -⟩ := s.coldStop_fuses s.service.straps
    refine ⟨_, he, hxy, idle, image, rfl, rfl, rfl, rfl, rfl, rfl, ?_, fun l => by cases l <;> rfl, fun p => ?_⟩
    · simp [State.svcIntLow, State.live, hxy]
    · have hp : PortStopped s p { s.coldStop s.service.straps with supplies := x, resetN := y } :=
        State.coldStop_stopped (straps := s.service.straps) (State.port_congr rfl rfl p)
      exact ⟨by simp [State.resetReleased, hp.held], by simp [State.readyLine, PortUnit.headReady, hp.empty], hp.quiet, hp.cut⟩
  · obtain ⟨x, y, -, he⟩ := exec_stops hc hs hr
    have array : (s.coldStop s.service.straps).fuseArray = { s.fuseArray with
        floor := s.fuseArray.floor.set k (.unsettled s.nextFree) } := by
      rw [(s.coldStop_fuses _).1, s.cutBurn_array, hb]
      dsimp only
      rw [s.settleFloor_array, FuseCell.settle, if_neg (by decide), FuseCell.unsettle_of_ne hk]
    refine ⟨_, he, ?_, fun j hj => ?_, ?_⟩
    · simp only [array]
      rw [vector_set_get, if_pos rfl]
    · simp only [array]
      rw [vector_set_get, if_neg hj]
    · simp only [array]
  · obtain ⟨x, y, -, he⟩ := exec_stops hc hs hr
    have array : (s.coldStop s.service.straps).fuseArray = { s.fuseArray with
        revoke := s.fuseArray.revoke.set k (.unsettled s.nextFree) } := by
      rw [(s.coldStop_fuses _).1, s.cutBurn_array, hb]
      dsimp only
      rw [s.settleRevoke_array, FuseCell.settle, if_neg (by decide), FuseCell.unsettle_of_ne hk]
    refine ⟨_, he, ?_, fun j hj => ?_, ?_⟩
    · simp only [array]
      rw [vector_set_get, if_pos rfl]
    · simp only [array]
      rw [vector_set_get, if_neg hj]
    · simp only [array]

/-! ## Service restarts (R200, R201) -/

theorem FlashController.start_resetting {c : FlashController} {x : AfterReset} (h : c.op = .resetting x) :
    c.start = { c with op := .resetting .readyWait } := by
  unfold FlashController.start
  rw [h]

theorem FlashController.start_other {c : FlashController} (h : ∀ x, c.op ≠ .resetting x) :
    c.start = ⟨.readyWait, [⟨0x05, [], 0, .fio1, []⟩]⟩ := by
  unfold FlashController.start
  split
  · exact absurd ‹_› (h _)
  · rfl

theorem State.serviceRestart_flash (s : State) : s.serviceRestart.flash = s.flash.start := by
  simp [State.serviceRestart]

theorem State.serviceRestart_slots (s : State) (k : Fin 8) : s.serviceRestart.slots[k] = s.slots[k].freed := by
  simp [State.serviceRestart, State.emptyTables]

theorem State.serviceRestart_lines (s : State) (n : Fin 64) : s.serviceRestart.lines[n] = s.lines[n].freed := by
  simp [State.serviceRestart, State.emptyTables]

theorem State.serviceRestart_permit (s : State) :
    s.serviceRestart.permit = s.permit.restart s.fuseImage.isSome := by
  simp [State.serviceRestart]

theorem State.serviceRestart_options (s : State) : s.serviceRestart.options = { s.options with debounce := 16 } := by
  simp [State.serviceRestart]

theorem State.serviceRestart_rescan (s : State) : s.serviceRestart.rescan = { s.rescan with
    running := false, debt := 0, cursorImage := 0, cursorSegment := 0, buffer := .empty, tag := none, passCount := 0 } := by
  simp [State.serviceRestart, State.emptyTables]

theorem State.serviceRestart_service (s : State) : s.serviceRestart.service = { s.service with
    flags := 0, imageCounter := 0, passCounter := 0, pendingRestart := false } := by
  simp [State.serviceRestart, ServicePort.clearAll]

theorem State.serviceRestart_port (s : State) (p : Port) : s.serviceRestart.port p = (s.cutFrames.port p).start := by
  cases p <;> rfl

theorem State.takePendingRestart_held {s : State} (hp : s.service.pendingRestart = true) (hc : s.fuseController = .idle) :
    s.takePendingRestart = s.serviceRestart := by
  simp [State.takePendingRestart, hp, hc]

/-- A held restart waits while the fuse controller is BURNING (R16). -/
theorem State.takePendingRestart_burning {s : State} (hc : s.fuseController ≠ .idle) : s.takePendingRestart = s := by
  simp [State.takePendingRestart, hc]

/-- The state with its I2C transaction and its pending restart mark at the values given. -/
def State.marked (s : State) (x : Transaction) (b : Bool) : State :=
  s.modService fun v => { v with transaction := x, pendingRestart := b }

theorem exec_restartSequence {s : State} (hl : s.live = true) (ht : s.service.transaction = .candidate 2) :
    exec .restartSequence s = .next (s.marked .none true).takePendingRestart := by
  show execRestartSequence s = _
  simp [execRestartSequence, State.when, State.marked, hl, ht]

theorem exec_serviceRestart {s : State} (hl : s.live = true) (hp : s.service.pendingRestart = true)
    (hc : s.fuseController = .idle) : exec .serviceRestart s = .next s.serviceRestart := by
  show execServiceRestart s = _
  simp [execServiceRestart, State.when, hl, hp, hc]

theorem exec_serviceRestart_burning {s : State} (hc : s.fuseController ≠ .idle) : exec .serviceRestart s = .next s := by
  show execServiceRestart s = _
  simp [execServiceRestart, State.when, hc]

/-- Either command that restarts the part is the restart of `s` with its I2C transaction and pending mark at some values. -/
theorem exec_restarts {s : State} {c : Instr} (hl : s.live = true)
    (hc : (c = .restartSequence ∧ s.service.transaction = .candidate 2) ∨ (c = .serviceRestart ∧ s.service.pendingRestart = true))
    (hi : s.fuseController = .idle) :
    ∃ x b, exec c s = .next (s.marked x b).serviceRestart := by
  rcases hc with ⟨rfl, ht⟩ | ⟨rfl, hp⟩
  · exact ⟨.none, true, by rw [exec_restartSequence hl ht, State.takePendingRestart_held (s := s.marked .none true) rfl hi]⟩
  · exact ⟨s.service.transaction, s.service.pendingRestart, exec_serviceRestart hl hp hi⟩

/-- What a held restart leaves at the end of the fuse command it waited for: STARTING with the command's result, and no flag. -/
structure RestartedWith (r : ResultStatus) (t : State) : Prop where
  starting : t.manifest.state = .starting
  step : t.manifest.startStep = some .flashWait
  idle : t.fuseController = .idle
  taken : t.service.pendingRestart = false
  result : t.service.result = r
  flags : t.service.flags = 0
  silent : t.svcIntLow = false

theorem State.endCommand_restarts {s : State} (hp : s.service.pendingRestart = true) (r : ResultStatus) :
    RestartedWith r (s.endCommand r).takePendingRestart ∧ (s.endCommand r).takePendingRestart.fuseArray = s.fuseArray ∧
      (s.endCommand r).takePendingRestart.fuseImage = s.fuseImage := by
  rw [State.takePendingRestart_held (s := s.endCommand r) hp rfl]
  have hservice := (s.endCommand r).serviceRestart_service
  refine ⟨⟨rfl, rfl, by simp; rfl, by rw [hservice], by rw [hservice]; rfl, by rw [hservice], ?_⟩, by simp, by simp⟩
  simp [State.svcIntLow, hservice]

/-- Settles O54: both restart commands are one restart, and a burn's end takes a held one. -/
theorem restartsEnterStarting : Obligations.RestartsEnterStarting := by
  unfold Obligations.RestartsEnterStarting
  refine ⟨fun s c hl hc => ⟨fun hb => ⟨fun e => ?_, fun e => ?_⟩, fun hi => ?_⟩, ?_⟩
  · rcases hc with ⟨-, ht⟩ | ⟨e', -⟩
    · rw [e, exec_restartSequence hl ht, State.takePendingRestart_burning (s := s.marked .none true) hb]
      rfl
    · cases e.symm.trans e'
  · rw [e, exec_serviceRestart_burning hb]
  · obtain ⟨x, b, he⟩ := exec_restarts hl hc hi
    have hidle : (s.marked x b).serviceRestart.fuseController = .idle := by simp [State.marked, hi]
    refine ⟨_, he, rfl, rfl, rfl, rfl, fun k => ?_, fun n => ?_, rfl, fun a ha => ?_, fun ha => ?_, fun p => ?_, rfl, ?_⟩
    · rw [State.serviceRestart_slots]
      exact ⟨rfl, rfl⟩
    · rw [State.serviceRestart_lines]
      exact ⟨rfl, rfl⟩
    · exact (State.serviceRestart_flash _).trans (FlashController.start_resetting ha)
    · exact (State.serviceRestart_flash _).trans (FlashController.start_other ha)
    · obtain ⟨held, empty, hold, quiet, cut, overrun, dropped, badFrame⟩ :=
        (State.start_stopped ((s.marked x b).serviceRestart_port p)).congr (s := s) (State.port_congr rfl rfl p) rfl
      exact ⟨held, empty, hold, quiet, cut, overrun, dropped, badFrame⟩
    · rw [State.serviceRestart_permit, State.serviceRestart_options, State.serviceRestart_rescan,
        State.serviceRestart_service, hidle]
      refine ⟨rfl, rfl, rfl, rfl, fun l => ?_, rfl, rfl, rfl, by simp [State.marked], by simp [State.marked], rfl, rfl⟩
      cases l <;> rfl
  · intro s hl hp restarted
    have hrestarted {r : ResultStatus} {t : State} (h : RestartedWith r t) : restarted t r :=
      ⟨h.starting, h.step, h.idle, h.taken, h.result, h.flags, h.silent⟩
    refine ⟨fun k good hc => ?_, ?_⟩
    · obtain ⟨hr, array, image⟩ := State.endCommand_restarts (s := s.settleRevoke k good) (by simpa using hp)
        (if good then .done else .fault)
      refine ⟨_, exec_revokeBurn hl hc good, hrestarted hr, ?_⟩
      rintro rfl
      rw [array, image, s.settleRevoke_array, s.settleRevoke_image]
      refine ⟨by rw [vector_set_get, if_pos rfl]; rfl, fun f hf => ?_⟩
      obtain ⟨g, -, rfl⟩ := Option.map_eq_some_iff.mp hf
      rw [vector_set_get, if_pos rfl]
    · intro k target f hc hf ht floor
      have hgood := State.settleFloor_good hf k
      have himage : (s.settleFloor k true).fuseImage = some { f with floor := f.floor.set k true } := by rw [hgood]
      have hburned : (s.settleFloor k true).fuseArray.floor[k] = .burned := by
        rw [hgood, vector_set_get, if_pos rfl]
      have hfloor : floor = ({ f with floor := f.floor.set k true } : FuseImage).floorLevel :=
        (FuseImage.floorLevel_eq { f with floor := f.floor.set k true }).symm
      have hp' (good : Bool) : (s.settleFloor k good).service.pendingRestart = true := by simpa using hp
      refine ⟨?_, fun hd => ?_, fun hd hs => ?_, fun hd hs => ?_⟩
      · obtain ⟨hr, -, image⟩ := State.endCommand_restarts (hp' false) .fault
        exact ⟨_, exec_floorBurn hl hc false, hrestarted hr, image.trans hf⟩
      · obtain ⟨hr, array, image⟩ := State.endCommand_restarts (hp' true) .done
        rw [exec_floorBurn hl hc, State.afterFloorBurn_done himage (hfloor ▸ hd)]
        exact ⟨_, rfl, hrestarted hr, by rw [array]; exact hburned, image.trans himage⟩
      · obtain ⟨hr, array, -⟩ := State.endCommand_restarts (hp' true) .aborted
        rw [exec_floorBurn hl hc, State.afterFloorBurn_aborted himage (hfloor ▸ hd) ht (by simpa using hs)]
        exact ⟨_, rfl, hrestarted hr, by rw [array]; exact hburned⟩
      · obtain ⟨j, -, hnext⟩ := State.afterFloorBurn_next himage (hfloor ▸ hd) ht (by simpa using hs)
        rw [exec_floorBurn hl hc, hnext, State.takePendingRestart_burning (by simp)]
        exact ⟨_, j, rfl, rfl, by simp, by simp⟩

end Sys2Proof.Machine
end

section
/-! SIGNATURE_DONE and the settings of a manifest: how a candidate ends (02_the_manifest_walk.md, R26, R27, R36). -/

namespace Sys2Proof.Machine

/-! ## A candidate ends (R36) -/

theorem ManifestUnit.setError_candidates (m : ManifestUnit) (src : Source) (e : WalkError) :
    (m.setError src e).candidates = m.candidates := by
  unfold ManifestUnit.setError
  split <;> rfl

theorem ManifestUnit.errorOf_setError (m : ManifestUnit) (src x : Source) (e : WalkError) :
    (m.setError src e).errorOf x = if x = src then e else m.errorOf x := by
  rcases src with (_ | _) | _ <;> rcases x with (_ | _) | _ <;> rfl

theorem State.beginCandidate_begun (s : State) (f : FuseImage) (src : Source) : WalkBegun f src (s.beginCandidate f src) :=
  ⟨⟨rfl, rfl, rfl⟩, rfl, rfl⟩

theorem State.enterLocked_locked (s : State) (c : LockedCause) : LockedBy c (s.enterLocked c) :=
  ⟨⟨rfl, rfl⟩, rfl, rfl, rfl, rfl, rfl⟩

theorem State.nextCandidate_errorOf (s : State) (f : FuseImage) (b : Bool) (x : Source) :
    (s.nextCandidate f b).manifest.errorOf x = s.manifest.errorOf x := by
  unfold State.nextCandidate
  split
  · rcases x with (_ | _) | _ <;> rfl
  · split <;> rcases x with (_ | _) | _ <;> rfl

theorem State.nextCandidate_signatureJob {s : State} (h : s.manifest.signatureJob = none) (f : FuseImage) (b : Bool) :
    (s.nextCandidate f b).manifest.signatureJob = none := by
  unfold State.nextCandidate
  split
  · exact h
  · split
    · exact h
    · rfl

theorem State.nextCandidate_bank {s : State} {b : Bank} {bs : List Bank} (h : s.manifest.candidates = b :: bs) (f : FuseImage)
    (after : Bool) : WalkBegun f (.bank b) (s.nextCandidate f after) ∧ (s.nextCandidate f after).manifest.candidates = bs := by
  unfold State.nextCandidate
  rw [h]
  exact ⟨State.beginCandidate_begun _ _ _, rfl⟩

theorem State.nextCandidate_recovery {s : State} {f : FuseImage} (h : s.manifest.candidates = []) (hf : 0 < f.recoveryMiB) :
    WalkBegun f .recovery (s.nextCandidate f false) := by
  have hr : f.hasRecovery = true := by simpa [FuseImage.hasRecovery] using hf
  unfold State.nextCandidate
  rw [h]
  simp only [hr, Bool.not_false, Bool.and_self, if_true]
  exact s.beginCandidate_begun _ _

theorem State.nextCandidate_locked {s : State} {f : FuseImage} {after : Bool} (h : s.manifest.candidates = [])
    (hf : after = true ∨ f.recoveryMiB = 0) : LockedBy .noManifest (s.nextCandidate f after) := by
  have hr : (!after && f.hasRecovery) = false := by
    rcases hf with rfl | hf
    · rfl
    · simp [FuseImage.hasRecovery, hf]
  unfold State.nextCandidate
  rw [h]
  simp only [hr, Bool.false_eq_true, if_false]
  exact s.enterLocked_locked _

theorem State.endCandidate_ended (s : State) (f : FuseImage) (src : Source) (e : WalkError) :
    CandidateEnded s f src e (s.endCandidate f src e) where
  tables := by simp [State.endCandidate]
  codes x := by
    rw [State.endCandidate, State.nextCandidate_errorOf]
    exact s.manifest.errorOf_setError src x e
  engine := State.nextCandidate_signatureJob rfl f _
  secondBank b bs h := State.nextCandidate_bank ((s.manifest.setError_candidates src e).trans h) f _
  recovery h hsrc hf := by
    have hnot : (src == .recovery) = false := by simpa using hsrc
    rw [State.endCandidate, hnot]
    exact State.nextCandidate_recovery ((s.manifest.setError_candidates src e).trans h) hf
  locked h hf := State.nextCandidate_locked ((s.manifest.setError_candidates src e).trans h) (hf.imp_left fun hs => by simp [hs])
  rest := by
    unfold State.endCandidate State.nextCandidate
    dsimp only
    split
    · rfl
    · split <;> rfl

/-- What the manifest unit does to its stack and its job before the end is not seen in it. -/
theorem CandidateEnded.of_modManifest {s t : State} {f : FuseImage} {src : Source} {e : WalkError}
    {g : ManifestUnit → ManifestUnit} (h : CandidateEnded (s.modManifest g) f src e t)
    (hcodes : ∀ x, (g s.manifest).errorOf x = s.manifest.errorOf x) (hcand : (g s.manifest).candidates = s.manifest.candidates) :
    CandidateEnded s f src e t where
  tables := h.tables
  codes x := by
    rw [h.codes x]
    simp [hcodes]
  engine := h.engine
  secondBank b bs hb := h.secondBank b bs (hcand.trans hb)
  recovery hb := h.recovery (hcand.trans hb)
  locked hb := h.locked (hcand.trans hb)
  rest := h.rest

/-! ## The settings (R8, R27) -/

theorem headerDelays_outOfRange {b : Bytes} (h : ∃ k ∈ [14, 16, 18, 20, 22, 24], 1023 < le16 b k) :
    (headerDelays b).inRange = false := by
  obtain ⟨k, hk, hb⟩ := h
  have hno : ¬ le16 b k ≤ 1023 := Nat.not_le.mpr hb
  simp only [List.mem_cons, List.not_mem_nil, or_false] at hk
  rcases hk with rfl | rfl | rfl | rfl | rfl | rfl <;> simp [Delays.inRange, headerDelays, hno]

theorem checkSettings_belowFloor {f : FuseImage} {b : Bytes} (h : byteAt b 10 < f.floor.toList.count true) :
    checkSettings f .root b = .belowFloor := by
  rw [← f.floorLevel_eq] at h
  simp [checkSettings, headerLevel, h]

theorem checkSettings_root_badEntry {f : FuseImage} {b : Bytes} (hl : f.floor.toList.count true ≤ byteAt b 10)
    (h : 32 < byteAt b 10 ∨ byteAt b 11 = 0 ∨ ∃ k ∈ [14, 16, 18, 20, 22, 24], 1023 < le16 b k) :
    checkSettings f .root b = .badEntry := by
  rw [← f.floorLevel_eq] at hl
  have hbad : (32 < headerLevel b || headerDebounce b < 1 || !(headerDelays b).inRange) = true := by
    rcases h with h | h | h
    · simp [headerLevel, h]
    · simp [headerDebounce, h]
    · simp [headerDelays_outOfRange h]
  simp only [checkSettings, headerLevel, Nat.not_lt.mpr hl, if_false]
  exact if_pos hbad

theorem checkSettings_recovery_badEntry {f : FuseImage} {b : Bytes}
    (h : byteAt b 11 = 0 ∨ ∃ k ∈ [14, 16, 18, 20, 22, 24], 1023 < le16 b k) :
    checkSettings f .recovery b = .badEntry := by
  refine if_pos ?_
  rcases h with h | h
  · simp [headerDebounce, h]
  · simp [headerDelays_outOfRange h]

/-! ## SIGNATURE_DONE -/

/-- The job's verdict is taken: the engine is free and the top frame's entries begin at the first. -/
def State.verdictTaken (s : State) (top : Frame) (rest : List Frame) : State :=
  s.modManifest fun m => { m with signatureJob := none, stack := { top with next := 0 } :: rest }

/-- A walk that waits for the verdict of the job `j` of its top frame. -/
structure AwaitsVerdict (s : State) (f : FuseImage) (src : Source) (top : Frame) (rest : List Frame) (j : SignatureJob) : Prop where
  live : s.live = true
  walking : s.manifest.state = .walking
  job : s.manifest.signatureJob = some j
  image : s.fuseImage = some f
  current : s.manifest.current = some src
  stack : s.manifest.stack = top :: rest

section

variable {s : State} {f : FuseImage} {src : Source} {top : Frame} {rest : List Frame} {j : SignatureJob}

theorem AwaitsVerdict.exec_other (h : AwaitsVerdict s f src top rest j) {pass : Bool} (hp : j.passes ≠ pass) :
    exec (.signatureDone pass) s = .next s := by
  show execSignatureDone pass s = _
  simp [execSignatureDone, h.live, h.walking, h.job, h.image, h.current, h.stack, hp.symm]

theorem AwaitsVerdict.exec_fail (h : AwaitsVerdict s f src top rest j) (hp : j.passes = false) :
    exec (.signatureDone false) s = .next ((s.verdictTaken top rest).endCandidate f src .badSignature) := by
  show execSignatureDone false s = _
  simp [execSignatureDone, State.verdictTaken, h.live, h.walking, h.job, h.image, h.current, h.stack, hp]

theorem AwaitsVerdict.exec_accepted (h : AwaitsVerdict s f src top rest j) (hp : j.passes = true)
    (hc : checkSettings f top.kind top.buffer = .none) :
    exec (.signatureDone true) s = .next (State.walkEntries f src 64 (s.verdictTaken top rest)) := by
  show execSignatureDone true s = _
  simp [execSignatureDone, State.verdictTaken, h.live, h.walking, h.job, h.image, h.current, h.stack, hp, hc]

theorem AwaitsVerdict.exec_refused (h : AwaitsVerdict s f src top rest j) (hp : j.passes = true) {e : WalkError} (he : e ≠ .none)
    (hc : checkSettings f top.kind top.buffer = e) :
    exec (.signatureDone true) s = .next ((s.verdictTaken top rest).endCandidate f src e) := by
  show execSignatureDone true s = _
  simp only [execSignatureDone, h.live, h.walking, h.job, h.image, h.current, h.stack, hp, hc]
  cases e with
  | none => exact absurd rfl he
  | _ => rfl

end

theorem State.verdictTaken_ended (s : State) (top : Frame) (rest : List Frame) (f : FuseImage) (src : Source) (e : WalkError) :
    CandidateEnded s f src e ((s.verdictTaken top rest).endCandidate f src e) :=
  (State.endCandidate_ended _ f src e).of_modManifest (fun x => by rcases x with (_ | _) | _ <;> rfl) rfl

/-- After a pass the candidate ends with the error of its settings, if they have one. -/
theorem AwaitsVerdict.exec_pass {s : State} {f : FuseImage} {src : Source} {top : Frame} {rest : List Frame} {j : SignatureJob}
    (h : AwaitsVerdict s f src top rest j) (hp : j.passes = true) : ∃ t, exec (.signatureDone true) s = .next t ∧ t.flash = s.flash ∧
      ∀ e, e ≠ .none → checkSettings f top.kind top.buffer = e → CandidateEnded s f src e t := by
  by_cases hc : checkSettings f top.kind top.buffer = .none
  · exact ⟨_, h.exec_accepted hp hc, by simp [State.verdictTaken], fun e he hce => absurd (hce.symm.trans hc) he⟩
  · refine ⟨_, h.exec_refused hp hc rfl, by simp [State.verdictTaken], ?_⟩
    rintro e - rfl
    exact s.verdictTaken_ended top rest f src _

/-- Settles O10: the verdict is the job's own; a fail ends the candidate, and after a pass the settings may. -/
theorem signatureAndSettingsEndTheCandidate : Obligations.SignatureAndSettingsEndTheCandidate := by
  unfold Obligations.SignatureAndSettingsEndTheCandidate
  rintro s f src top rest _ j hl hw hj hf hc hs rfl
  have h : AwaitsVerdict s f src top rest j := ⟨hl, hw, hj, hf, hc, hs⟩
  refine ⟨fun hp => h.exec_other (by simp [hp]), fun hp => ⟨h.exec_other (by simp [hp]), _, h.exec_fail hp,
    by simp [State.verdictTaken], s.verdictTaken_ended top rest f src _⟩, fun hp => ?_⟩
  obtain ⟨t, he, hflash, hend⟩ := h.exec_pass hp
  refine ⟨t, he, hflash, fun hk hb => ?_, fun hk hb hbad => ?_, fun hk hbad => ?_⟩
  · exact hend _ (by decide) (by rw [hk, checkSettings_belowFloor hb])
  · exact hend _ (by decide) (by rw [hk, checkSettings_root_badEntry hb hbad])
  · exact hend _ (by decide) (by rw [hk, checkSettings_recovery_badEntry hbad])

end Sys2Proof.Machine
end

section
/-! WRITE, ERASE and the permit frames of Port A at their taking (07_master_ports.md, R121, R128, R129, R144). -/

namespace Sys2Proof.Machine

/-! ## A frame that a port takes -/

/-- A frame with nothing held at its end has the effect of its command on the port with the frame closed and what was driven of it kept
(R125). -/
theorem State.endFrame_takes {s : State} {p : Port} {f : SpiFrame} (h : s.takesFrame p f) (hx : f.heldExpiry = false)
    (effect : SpiFrame → State → State) : s.endFrame p sendsStatus effect =
      effect f (s.modPort p fun v => { v with frame := none, sent := .bytes [f.status] }) := by
  obtain ⟨hlive, hrun | ⟨hnone, hl, hr, hf⟩⟩ := h
  · simp [State.endFrame, hrun, hlive, State.takeHeldExpiry, hx, SpiFrame.driven, sendsStatus]
  · have hopen : s.openFrame p = s.modPort p fun u => { u with frame := some f } := by
      simp [State.openFrame, hl, hr, hf]
    have hclose : (s.modPort p fun u => { u with frame := some f }).modPort p
        (fun v => { v with frame := none, sent := .bytes [f.status] }) =
          s.modPort p fun v => { v with frame := none, sent := .bytes [f.status] } := by
      cases p <;> rfl
    simp [State.endFrame, hnone, hopen, hclose, hlive, State.takeHeldExpiry, hx, SpiFrame.driven, sendsStatus]

/-- A frame taken whose command queues an entry that needs no lookup, with room in the queue (R128). -/
theorem State.endFrame_queues {s : State} {p : Port} {f : SpiFrame} (h : s.takesFrame p f) (hx : f.heldExpiry = false)
    (hq : (s.port p).queue.length < 4) (tag : Byte) (body : Body) (status : State → Option RespStatus)
    (hstatus : ∀ g, status (s.modPort p g) = status s) :
    s.endFrame p sendsStatus (fun _ t => t.takeQueued p fun u => u.takeEntry p tag body (status u)) =
      { s.modPort p (fun u => { u with
          frame := none, sent := .bytes [f.status], queue := u.queue ++ [⟨s.nextEntry, tag, body, status s, false⟩] }) with
        nextEntry := s.nextEntry + 1 } := by
  rw [State.endFrame_takes h hx, State.takeQueued, if_neg (by simpa using hq), State.takeEntry, hstatus]
  cases p <;> rfl

/-! ## The judgement of a WRITE or ERASE (R121, R129) -/

theorem State.judgeWrite_b (s : State) (a : Nat) (bad : Bool) : s.judgeWrite .b a bad = some .badReq := rfl

theorem State.judgeWrite_bad (s : State) (a : Nat) : s.judgeWrite .a a true = some .badReq := rfl

theorem State.judgeWrite_a (s : State) (a : Nat) :
    s.judgeWrite .a a false = if s.writable a then none else some .denied := rfl

theorem State.writable_congr {s t : State} (hi : t.fuseImage = s.fuseImage) (hm : t.manifest = s.manifest) (a : Nat) :
    t.writable a = s.writable a := by
  rw [State.writable, State.writable, hi, State.activeBank, State.activeBank, hm]

theorem State.judgeWrite_modPort (s : State) (p q : Port) (a : Nat) (bad : Bool) (g : PortUnit → PortUnit) :
    (s.modPort q g).judgeWrite p a bad = s.judgeWrite p a bad := by
  unfold State.judgeWrite
  rw [State.writable_congr (s := s) (by simp) (by simp)]

theorem pageFault_iff (a : Nat) (data : Bytes) : pageFault a data = true ↔ data = [] ∨ 256 < a % 256 + data.length := by
  simp [pageFault]

/-- Bank `b` may be written: always in RECOVERY_SERVING, in SERVING unless it is the active bank, in no other state (R121). -/
def State.bankWritable (s : State) (b : Bank) : Prop :=
  s.manifest.state = .recoveryServing ∨ s.manifest.state = .serving ∧ ∀ r, s.manifest.summary ≠ some ⟨.bank b, r⟩

theorem State.activeBank_ne_iff {s : State} (h : s.manifest.state = .serving) (b : Bank) :
    s.activeBank ≠ some b ↔ ∀ r, s.manifest.summary ≠ some ⟨.bank b, r⟩ := by
  unfold State.activeBank
  rw [h]
  cases s.manifest.summary with
  | none => simp
  | some m =>
    obtain ⟨src, root⟩ := m
    cases src <;> simp

/-! In the next two the flash map is held as a variable: were it the definition, the kernel would compare addresses with the sizes
multiplied out. -/

theorem State.writable_bank {s : State} {m : FuseImage} (hm : s.fuseImage = some m) {a : Nat} {b : Bank}
    (hr : m.regionOf a = some (.bank b)) : s.writable a = true ↔ s.bankWritable b := by
  obtain ⟨region, hregion⟩ : ∃ region, region = FuseImage.regionOf := ⟨_, rfl⟩
  rw [State.writable, hm, ← hregion]
  rw [← hregion] at hr
  dsimp only
  rw [hr]
  unfold State.bankWritable
  cases hs : s.manifest.state with
  | serving =>
    rw [← State.activeBank_ne_iff hs b]
    simp
  | _ => simp

theorem State.writable_other {s : State} {m : FuseImage} (hm : s.fuseImage = some m) {a : Nat}
    (hr : ∀ b, m.regionOf a ≠ some (.bank b)) : s.writable a = false := by
  obtain ⟨region, hregion⟩ : ∃ region, region = FuseImage.regionOf := ⟨_, rfl⟩
  rw [State.writable, hm, ← hregion]
  rw [← hregion] at hr
  dsimp only
  split
  · exact absurd ‹_› (hr _)
  · rfl

theorem State.writable_iff {s : State} {m : FuseImage} (hm : s.fuseImage = some m) (a : Nat) :
    s.writable a = true ↔ ∃ b, m.regionOf a = some (.bank b) ∧ s.bankWritable b := by
  by_cases h : ∃ b, m.regionOf a = some (.bank b)
  · obtain ⟨b, hr⟩ := h
    rw [State.writable_bank hm hr]
    refine ⟨fun hb => ⟨b, hr, hb⟩, fun ⟨b', hr', hb⟩ => ?_⟩
    cases hr.symm.trans hr'
    exact hb
  · rw [State.writable_other hm fun b hr => h ⟨b, hr⟩]
    exact ⟨fun hno => absurd hno (by decide), fun ⟨b, hr, _⟩ => absurd ⟨b, hr⟩ h⟩

/-- The banks by their addresses (R1, R2). -/
theorem FuseImage.regionOf_bank (m : FuseImage) (a : Nat) (b : Bank) : m.regionOf a = some (.bank b) ↔
    a < m.flashBytes ∧ a < m.flashBytes - m.recoveryBytes ∧
      match b with
      | .bank0 => a < m.bankBytes
      | .bank1 => m.bankBytes ≤ a := by
  unfold FuseImage.regionOf
  by_cases hout : m.flashBytes ≤ a
  · simp [hout, Nat.not_lt.mpr hout]
  by_cases hrecovery : m.flashBytes - m.recoveryBytes ≤ a
  · simp [hout, hrecovery, Nat.not_lt.mpr hrecovery]
  · by_cases hbank1 : m.bankBytes ≤ a <;> cases b <;> simp [hout, hrecovery, hbank1] <;> omega

/-- Settles O39: WRITE and ERASE go to `judgeWrite`, whose `writable` is the statement's condition; Port A's permit frames are
BADREQ. -/
theorem writeEraseAndPortAPermitAreJudged : Obligations.WriteEraseAndPortAPermitAreJudged := by
  unfold Obligations.WriteEraseAndPortAPermitAreJudged
  refine ⟨?_, fun s f c b hf hx hq hc => ?_⟩
  · intro s p f m tag x data hf hx hq hm bank0 bank1 allowed badPage
    have hallowed : s.writable x.toNat = true ↔ allowed := by
      rw [State.writable_iff hm]
      simp only [FuseImage.regionOf_bank, State.bankWritable, allowed, bank0, bank1]
      constructor
      · rintro ⟨b, ⟨h1, h2, h3⟩, hb⟩
        refine ⟨h1, h2, hb.imp_right fun ⟨hs, hr⟩ => ⟨hs, ?_⟩⟩
        cases b with
        | bank0 => exact .inr ⟨h3, hr⟩
        | bank1 => exact .inl ⟨⟨h3, h2⟩, hr⟩
      · rintro ⟨h1, h2, hb⟩
        rcases hb with hb | ⟨hs, ⟨⟨h3, _⟩, hr⟩ | ⟨h3, hr⟩⟩
        · by_cases h3 : m.bankBytes ≤ x.toNat
          · exact ⟨.bank1, ⟨h1, h2, h3⟩, .inl hb⟩
          · exact ⟨.bank0, ⟨h1, h2, Nat.lt_of_not_le h3⟩, .inl hb⟩
        · exact ⟨.bank1, ⟨h1, h2, h3⟩, .inr ⟨hs, hr⟩⟩
        · exact ⟨.bank0, ⟨h1, h2, h3⟩, .inr ⟨hs, hr⟩⟩
    refine ⟨s.judgeWrite p x.toNat (pageFault x.toNat data), s.judgeWrite p x.toNat false, ?_, ?_, ?_, ?_⟩
    · exact congrArg Host.Outcome.next (State.endFrame_queues hf hx hq _ _ _ fun g => s.judgeWrite_modPort _ _ _ _ g)
    · exact congrArg Host.Outcome.next (State.endFrame_queues hf hx hq _ _ _ fun g => s.judgeWrite_modPort _ _ _ _ g)
    · rintro rfl
      exact ⟨s.judgeWrite_b _ _, s.judgeWrite_b _ _⟩
    · rintro rfl
      refine ⟨fun hbad => ?_, fun hgood => ?_, fun hno => ?_, fun hyes => ?_⟩
      · rw [(pageFault_iff _ _).mpr hbad]
        exact s.judgeWrite_bad _
      · rw [Bool.eq_false_iff.mpr (mt (pageFault_iff _ _).mp hgood)]
      · rw [s.judgeWrite_a, if_neg (mt hallowed.mp hno)]
      · rw [s.judgeWrite_a, if_pos (hallowed.mpr hyes)]
  · rcases hc with ⟨rfl, rfl⟩ | ⟨rfl, rfl⟩
    · exact congrArg Host.Outcome.next (State.endFrame_queues hf hx hq 0 _ (fun _ => some .badReq) fun _ => rfl)
    · exact congrArg Host.Outcome.next (State.endFrame_queues hf hx hq 0 _ (fun _ => some .badReq) fun _ => rfl)

end Sys2Proof.Machine
end

section
/-! The bytes of the service records (11_service_port.md, R191 to R199; 12_formats.md, Service record map). -/

namespace Sys2Proof.Machine

/-! ## Bytes and numbers -/

theorem toNat_byte {n : Nat} (h : n < 256) : (BitVec.ofNat 8 n).toNat = n := Nat.mod_eq_of_lt h

/-- The two bytes of a number, most significant first (R202). -/
theorem be16_value {n : Nat} (h : n < 65536) :
    256 * ((be16 n).getD 0 0).toNat + ((be16 n).getD 1 0).toNat = n := by
  show 256 * (BitVec.ofNat 8 (n / 256)).toNat + (BitVec.ofNat 8 n).toNat = n
  simp only [BitVec.toNat_ofNat]
  omega

theorem bit_le (b : Bool) : bit b ≤ 1 := by
  cases b <;> decide

theorem zeros_getD (n k : Nat) : (zeros n).getD k 0 = 0 := by
  rw [zeros, List.getD_eq_getElem?_getD, List.getElem?_replicate]
  split <;> rfl

/-- Behind the first `n` bytes, the byte at `n + k` is the byte at `k` of the rest. -/
theorem getD_behind {a b : Bytes} {n : Nat} (h : a.length = n) (k : Nat) : (a ++ b).getD (n + k) 0 = b.getD k 0 := by
  rw [List.getD_eq_getElem?_getD, List.getElem?_append_right (by omega), List.getD_eq_getElem?_getD, h,
    Nat.add_sub_cancel_left]

theorem getD_within {a : Bytes} (b : Bytes) {k : Nat} (h : k < a.length) : (a ++ b).getD k 0 = a.getD k 0 := by
  rw [List.getD_eq_getElem?_getD, List.getElem?_append_left h, List.getD_eq_getElem?_getD]

/-! ## A byte comes from its record -/

theorem State.recordByte_of {r : Record} {p : Nat} (h : recordAt p = some r) (s : State) :
    s.recordByte p = (s.recordBytes r).getD (p - r.base) 0 := by
  simp [State.recordByte, State.captureFor, h, capturedByte]

theorem State.recordByte_none {p : Nat} (h : recordAt p = none) (s : State) : s.recordByte p = 0 := by
  simp [State.recordByte, State.captureFor, h, capturedByte]

/-- The addresses that are not implemented lie in no record (R191). -/
theorem recordAt_of_not_implemented {p : Nat} (h : implemented p = false) : recordAt p = none := by
  simp only [implemented, Bool.or_eq_false_iff, Bool.and_eq_false_iff, decide_eq_false_iff_not, beq_eq_false_iff_ne] at h
  unfold recordAt
  iterate 4 rw [if_neg (by omega)]
  rw [if_neg (by omega), if_neg (by omega)]

theorem State.statusByte_of (s : State) {p : Nat} (h : p < 0x10) : s.recordByte p = s.statusRecord.getD p 0 :=
  State.recordByte_of (if_pos h) s

theorem State.imageByte_of (s : State) {p : Nat} (h : 0x40 ≤ p) (h' : p ≤ 0x4F) :
    s.recordByte p = s.imageRecordBytes.getD (p - 0x40) 0 := by
  refine State.recordByte_of (r := .image) ?_ s
  unfold recordAt
  iterate 4 rw [if_neg (by omega)]
  rw [if_neg (by omega), if_pos (by omega)]

/-! ## The status record (R193) -/

theorem VerifierState.code_le (x : VerifierState) : x.code ≤ 5 := by cases x <;> decide

theorem lockedCode_le (x : Option LockedCause) : lockedCode x ≤ 2 := by
  rcases x with _ | _ | _ <;> decide

theorem sourceCode_le (x : Option Summary) : sourceCode x ≤ 3 := by
  rcases x with _ | ⟨(_ | _) | _, _⟩ <;> simp [sourceCode]

theorem PermitState.code_le (x : PermitState) : x.code ≤ 4 := by cases x <;> decide

theorem PortState.code_le (x : PortState) : x.code ≤ 2 := by cases x <;> decide

theorem FlashOp.code_le (x : FlashOp) : x.code ≤ 4 := by cases x <;> simp [FlashOp.code]

theorem CauseKind.code_le (x : CauseKind) : x.code ≤ 3 := by cases x <;> decide

theorem State.reportedFloor_le (s : State) : s.reportedFloor ≤ 32 := by
  unfold State.reportedFloor
  split
  · rw [FuseImage.floorLevel_eq]
    exact floor_count_le _
  · decide

theorem State.reportedRevoked_le (s : State) : s.reportedRevoked ≤ 15 := by
  unfold State.reportedRevoked
  split
  · rename_i f _
    have h0 := bit_le f.revoked[0]
    have h1 := bit_le f.revoked[1]
    have h2 := bit_le f.revoked[2]
    have h3 := bit_le f.revoked[3]
    omega
  · decide

/-- The part of the status record from the option word on, at 0x09. -/
def State.statusTail (s : State) : Bytes :=
  [s.options.word, BitVec.ofNat 8 s.reportedFloor, BitVec.ofNat 8 (s.reportedRevoked + 16 * s.rescan.debt)] ++
  be16 s.rescan.passCount.toNat ++
  [BitVec.ofNat 8 (s.portA.state.code + 4 * s.portB.state.code + 16 * s.flash.op.code), 0]

theorem causeBytes_length (c : Option TripCause) : (causeBytes c).length = 4 := by
  cases c <;> rfl

/-- The status record is five code bytes, the four bytes of the trip cause, and the part from the option word on. -/
theorem State.statusRecord_eq (s : State) : ∃ codes : Bytes, codes.length = 5 ∧
    s.statusRecord = codes ++ (causeBytes s.permit.cause ++ s.statusTail) :=
  ⟨[BitVec.ofNat 8 (s.manifest.state.code + 16 * lockedCode s.manifest.lockedCause),
    BitVec.ofNat 8 (sourceCode s.manifest.summary + 16 * s.permit.state.code),
    BitVec.ofNat 8 s.manifest.errorBank0.code, BitVec.ofNat 8 s.manifest.errorBank1.code,
    BitVec.ofNat 8 s.manifest.errorRecovery.code], rfl, by simp [State.statusRecord, State.statusTail]⟩

theorem State.causeByte (s : State) {k : Nat} (h : k < 4) : s.recordByte (5 + k) = (causeBytes s.permit.cause).getD k 0 := by
  obtain ⟨codes, hl, he⟩ := s.statusRecord_eq
  have hk : k < (causeBytes s.permit.cause).length := (causeBytes_length _).symm ▸ h
  rw [s.statusByte_of (by omega), he, getD_behind hl, getD_within _ hk]

theorem State.tailByte (s : State) {k : Nat} (h : k < 7) : s.recordByte (9 + k) = s.statusTail.getD k 0 := by
  obtain ⟨codes, hl, he⟩ := s.statusRecord_eq
  have hk : 9 + k = 5 + (4 + k) := by omega
  rw [s.statusByte_of (by omega), he, hk, getD_behind hl, getD_behind (causeBytes_length _)]

theorem State.verifierByte (s : State) :
    (s.recordByte 0x00).toNat = s.manifest.state.code + 16 * lockedCode s.manifest.lockedCause := by
  have h1 := s.manifest.state.code_le
  have h2 := lockedCode_le s.manifest.lockedCause
  exact toNat_byte (by omega)

theorem State.sourceByte (s : State) : (s.recordByte 0x01).toNat = sourceCode s.manifest.summary + 16 * s.permit.state.code := by
  have h1 := sourceCode_le s.manifest.summary
  have h2 := s.permit.state.code_le
  exact toNat_byte (by omega)

theorem State.causeBytes_none {s : State} (h : s.permit.cause = none) {q : Nat} (h5 : 5 ≤ q) (h8 : q ≤ 8) :
    s.recordByte q = 0 := by
  obtain ⟨k, rfl⟩ := Nat.exists_eq_add_of_le h5
  rw [s.causeByte (by omega), h]
  exact zeros_getD 4 _

theorem State.causeKindByte {s : State} {c : TripCause} (h : s.permit.cause = some c) :
    (s.recordByte 0x05).getLsbD 7 = true ∧ (s.recordByte 0x05 &&& 0x7F).toNat = c.kind.code := by
  have e : s.recordByte 0x05 = BitVec.ofNat 8 (128 + c.kind.code) := by
    rw [s.causeByte (k := 0) (by decide), h]
    rfl
  rw [e]
  cases c.kind <;> decide

theorem State.causeImageByte {s : State} {c : TripCause} (h : s.permit.cause = some c) (hi : c.image < 256) :
    (s.recordByte 0x06).toNat = c.image := by
  rw [s.causeByte (k := 1) (by decide), h]
  exact toNat_byte hi

theorem State.causeIndexBytes {s : State} {c : TripCause} (h : s.permit.cause = some c) (hi : c.index < 65536) :
    256 * (s.recordByte 0x07).toNat + (s.recordByte 0x08).toNat = c.index := by
  rw [s.causeByte (k := 2) (by decide), s.causeByte (k := 3) (by decide), h]
  exact be16_value hi

theorem State.floorByte (s : State) : (s.recordByte 0x0A).toNat = s.reportedFloor := by
  rw [s.tailByte (k := 1) (by decide)]
  have h := s.reportedFloor_le
  exact toNat_byte (by omega)

theorem State.revokedByte (s : State) :
    s.recordByte 0x0B = BitVec.ofNat 8 (s.reportedRevoked + 16 * s.rescan.debt) := by
  rw [s.tailByte (k := 2) (by decide)]
  rfl

theorem State.debtBits {s : State} (h : s.rescan.debt ≤ 8) : (s.recordByte 0x0B).toNat / 16 = s.rescan.debt := by
  have hr := s.reportedRevoked_le
  rw [s.revokedByte, toNat_byte (by omega)]
  omega

theorem State.revokedBits_none {s : State} (h : s.fuseImage = none) : (s.recordByte 0x0B &&& 0x0F) = 0 := by
  have hz : s.reportedRevoked = 0 := by simp [State.reportedRevoked, h]
  rw [s.revokedByte, hz]
  apply BitVec.eq_of_toNat_eq
  rw [BitVec.toNat_and, BitVec.toNat_ofNat]
  show (0 + 16 * s.rescan.debt) % 256 &&& (2 ^ 4 - 1) = 0
  rw [Nat.and_two_pow_sub_one_eq_mod]
  omega

/-- The four low bits of a byte spell the four flags of a mask, whatever its high bits hold. -/
theorem mask_bit (v : Vector Bool 4) (high : Nat) (k : Fin 4) :
    (bit v[0] + 2 * bit v[1] + 4 * bit v[2] + 8 * bit v[3] + 16 * high) / 2 ^ (k : Nat) % 2 = bit v[k] := by
  have h0 := bit_le v[0]
  have h1 := bit_le v[1]
  have h2 := bit_le v[2]
  have h3 := bit_le v[3]
  match k with
  | 0 => change _ / 1 % 2 = bit v[0]; omega
  | 1 => change _ / 2 % 2 = bit v[1]; omega
  | 2 => change _ / 4 % 2 = bit v[2]; omega
  | 3 => change _ / 8 % 2 = bit v[3]; omega

/-- The mask of the revoke fuses has the bit of each slot where its fuse is burned (R4, R193). -/
theorem State.revokedBits {s : State} {f : FuseImage} (h : s.fuseImage = some f) (k : Fin 4) :
    (s.recordByte 0x0B).getLsbD k = f.revoked[k] := by
  have hm : s.reportedRevoked = bit f.revoked[0] + 2 * bit f.revoked[1] + 4 * bit f.revoked[2] + 8 * bit f.revoked[3] := by
    simp [State.reportedRevoked, h]
  have hbit (b : Bool) : decide (bit b = 1) = b := by cases b <;> rfl
  have hk : (k : Nat) < 8 := by omega
  rw [s.revokedByte, BitVec.getLsbD_ofNat, decide_eq_true hk, Bool.true_and, Nat.testBit_eq_decide_div_mod_eq, hm,
    mask_bit, hbit]

theorem State.passBytes (s : State) : 256 * (s.recordByte 0x0C).toNat + (s.recordByte 0x0D).toNat = s.rescan.passCount.toNat := by
  rw [s.tailByte (k := 3) (by decide), s.tailByte (k := 4) (by decide)]
  exact be16_value s.rescan.passCount.isLt

theorem State.portByte (s : State) :
    (s.recordByte 0x0E).toNat = s.portA.state.code + 4 * s.portB.state.code + 16 * s.flash.op.code := by
  have ha := s.portA.state.code_le
  have hb := s.portB.state.code_le
  have hf := s.flash.op.code_le
  rw [s.tailByte (k := 5) (by decide)]
  exact toNat_byte (by omega)

/-! ## The image record (R194) -/

theorem State.imageBytes_none {s : State} (h : s.images[s.service.select]? = none) {q : Nat} (h40 : 0x40 ≤ q) (h4F : q ≤ 0x4F) :
    s.recordByte q = 0 := by
  rw [s.imageByte_of h40 h4F, State.imageRecordBytes, h]
  exact zeros_getD 16 _

section

variable {s : State} {im : Image}

theorem State.imageRecordBytes_eq (h : s.images[s.service.select]? = some im) (hn : im.name.length = 8) :
    s.imageRecordBytes = [BitVec.ofNat 8 (128 + 64 * bit im.included + 16 * im.state.code + 8 * im.releaseMode.bitCode +
        4 * im.windowMode.bitCode + im.owner.code), BitVec.ofNat 8 (failureMark im.failure)] ++
      (im.name ++ (be16 im.segments ++ (be16 im.verified ++ be16 (failureIndex im.failure)))) := by
  simp [State.imageRecordBytes, h, List.take_of_length_le (Nat.le_of_eq hn)]

theorem State.imageHeadByte (h : s.images[s.service.select]? = some im) : (s.recordByte 0x40).toNat =
    128 + 64 * bit im.included + 16 * im.state.code + 8 * im.releaseMode.bitCode + 4 * im.windowMode.bitCode + im.owner.code := by
  rw [s.imageByte_of (by decide) (by decide), State.imageRecordBytes, h]
  refine toNat_byte ?_
  have hi := bit_le im.included
  have hs : im.state.code ≤ 2 := by cases im.state <;> decide
  have hr : im.releaseMode.bitCode ≤ 1 := by cases im.releaseMode <;> decide
  have hw : im.windowMode.bitCode ≤ 1 := by cases im.windowMode <;> decide
  have ho : im.owner.code ≤ 3 := by cases im.owner <;> decide
  omega

theorem State.failureMarkByte (h : s.images[s.service.select]? = some im) :
    (s.recordByte 0x41).toNat = failureMark im.failure := by
  rw [s.imageByte_of (by decide) (by decide), State.imageRecordBytes, h]
  refine toNat_byte ?_
  rcases im.failure with _ | _ | _ <;> simp [failureMark]

theorem State.imageNameByte (h : s.images[s.service.select]? = some im) (hn : im.name.length = 8) {q : Nat} (hq : q < 8) :
    s.recordByte (0x42 + q) = im.name.getD q 0 := by
  have hk : 0x42 + q - 0x40 = 2 + q := by omega
  rw [s.imageByte_of (by omega) (by omega), State.imageRecordBytes_eq h hn, hk, getD_behind (n := 2) rfl, getD_within _ (hn ▸ hq)]

theorem State.imageCountByte (h : s.images[s.service.select]? = some im) (hn : im.name.length = 8) {k : Nat} (hk : k < 6) :
    s.recordByte (0x4A + k) = (be16 im.segments ++ (be16 im.verified ++ be16 (failureIndex im.failure))).getD k 0 := by
  have hq : 0x4A + k - 0x40 = 2 + (8 + k) := by omega
  rw [s.imageByte_of (by omega) (by omega), State.imageRecordBytes_eq h hn, hq, getD_behind (n := 2) rfl, getD_behind hn]

theorem State.imageName (h : s.images[s.service.select]? = some im) (hn : im.name.length = 8) :
    (List.range 8).map (fun q => s.recordByte (0x42 + q)) = im.name := by
  apply List.ext_getElem
  · simp [hn]
  · intro q hq hq'
    have hq8 : q < 8 := by simpa using hq
    rw [List.getElem_map, List.getElem_range, State.imageNameByte h hn hq8, List.getD_eq_getElem?_getD,
      List.getElem?_eq_getElem hq', Option.getD_some]

theorem State.imageSegmentsBytes (h : s.images[s.service.select]? = some im) (hn : im.name.length = 8) (hi : im.segments < 65536) :
    256 * (s.recordByte 0x4A).toNat + (s.recordByte 0x4B).toNat = im.segments := by
  rw [State.imageCountByte (k := 0) h hn (by decide), State.imageCountByte (k := 1) h hn (by decide)]
  exact be16_value hi

theorem State.imageVerifiedBytes (h : s.images[s.service.select]? = some im) (hn : im.name.length = 8) (hi : im.verified < 65536) :
    256 * (s.recordByte 0x4C).toNat + (s.recordByte 0x4D).toNat = im.verified := by
  rw [State.imageCountByte (k := 2) h hn (by decide), State.imageCountByte (k := 3) h hn (by decide)]
  exact be16_value hi

theorem State.failureIndexBytes (h : s.images[s.service.select]? = some im) (hn : im.name.length = 8)
    (hi : failureIndex im.failure < 65536) :
    256 * (s.recordByte 0x4E).toNat + (s.recordByte 0x4F).toNat = failureIndex im.failure := by
  rw [State.imageCountByte (k := 4) h hn (by decide), State.imageCountByte (k := 5) h hn (by decide)]
  exact be16_value hi

end


/-- Settles O48: each code of the statement is the code of the model, and each byte has its lemma above. -/
theorem recordBytesShowTheState : Obligations.RecordBytesShowTheState := by
  unfold Obligations.RecordBytesShowTheState
  intro s hdebt verifier locked source permit walkError cause port flash result reason image failed
  have hverifier : verifier = s.manifest.state.code := rfl
  have hlocked : locked = lockedCode s.manifest.lockedCause := rfl
  have hsource : source = sourceCode s.manifest.summary := rfl
  have hpermit : permit = s.permit.state.code := rfl
  have hwalk : ∀ e, BitVec.ofNat 8 e.code = walkError e := by
    intro e
    cases e <;> rfl
  have hcause : ∀ k, cause k = k.code := fun k => rfl
  have hport : ∀ x, port x = x.code := fun x => rfl
  have hflash : flash = s.flash.op.code := rfl
  have hresult : BitVec.ofNat 8 s.service.result.code = result := by
    unfold result
    cases s.service.result <;> rfl
  have hreason : BitVec.ofNat 8 s.service.reason.code = reason := by
    unfold reason
    cases s.service.reason <;> rfl
  have himage : ∀ im : Image, image im = 128 + 64 * bit im.included + 16 * im.state.code + 8 * im.releaseMode.bitCode +
      4 * im.windowMode.bitCode + im.owner.code := by
    intro im
    refine congr (congrArg HAdd.hAdd (congr (congrArg HAdd.hAdd (congr (congrArg HAdd.hAdd
      (congr (congrArg HAdd.hAdd (congrArg (128 + ·) ?included)) rfl)) ?release)) ?window)) rfl
    case included => cases im.included <;> rfl
    case release => cases im.releaseMode <;> rfl
    case window => cases im.windowMode <;> rfl
  have hfailed : ∀ x, failed x = (failureMark x, failureIndex x) := by
    intro x
    rcases x with _ | _ | _ <;> rfl
  refine ⟨?_, ?_, hwalk _, hwalk _, hwalk _, fun hc q h5 h8 => State.causeBytes_none hc h5 h8, ?_, ?_, ?_, ?_,
    State.debtBits hdebt, s.passBytes, ?_, rfl, rfl, rfl, rfl, rfl, hresult, hreason, ?_, ?_, ?_, rfl,
    fun h q h40 h4F => State.imageBytes_none h h40 h4F, ?_, ?_⟩
  · rw [hverifier, hlocked, s.verifierByte]
  · rw [hsource, hpermit, s.sourceByte]
  · intro c hc himg hidx
    rw [hcause]
    exact ⟨State.causeKindByte hc, State.causeImageByte hc (by omega), State.causeIndexBytes hc (by omega)⟩
  · exact s.tailByte (k := 0) (by decide)
  · intro hf
    refine ⟨?_, State.revokedBits_none hf⟩
    apply BitVec.eq_of_toNat_eq
    rw [s.floorByte, State.reportedFloor, hf]
    rfl
  · intro f hf
    refine ⟨?_, State.revokedBits hf⟩
    rw [s.floorByte, State.reportedFloor, hf]
    exact FuseImage.floorLevel_eq f
  · rw [s.portByte, hport, hport, hflash]
  · change BitVec.ofNat 8 (bit s.service.ignored) = _
    cases s.service.ignored <;> rfl
  · intro hp
    have himagePeriod : s.service.imagePeriod ≤ 3 := hp .imageComplete
    have hpassPeriod : s.service.passPeriod ≤ 3 := hp .rescanPass
    exact ⟨toNat_byte (by omega), toNat_byte (by omega)⟩
  · intro hsel
    exact toNat_byte (by omega)
  · intro im him hname hseg hver hidx
    rw [hfailed] at hidx
    rw [himage, hfailed]
    exact ⟨State.imageHeadByte him, State.failureMarkByte him, State.failureIndexBytes him hname (by omega),
      State.imageName him hname, State.imageSegmentsBytes him hname (by omega), State.imageVerifiedBytes him hname (by omega)⟩
  · intro q hq
    rcases hq with hq | hq
    · exact State.recordByte_none (recordAt_of_not_implemented hq) s
    · simp only [List.mem_cons, List.not_mem_nil, or_false] at hq
      rcases hq with rfl | rfl | rfl | rfl | rfl | rfl | rfl
      · exact s.tailByte (k := 6) (by decide)
      all_goals rfl

end Sys2Proof.Machine
end
